-- ==== Sys2Proof/Word.lean ====
section
/-! DEFINITION. The two widths the block moves: 32-bit register values and bytes (00_scope.md R8). -/

namespace Sys2Proof

/-- A register value: "Every register value is a 32-bit unsigned number" (R8). -/
abbrev Word := BitVec 32

/-- A byte: "every buffer element is an 8-bit unsigned number" (R8). -/
abbrev Byte := BitVec 8

end Sys2Proof
end

