-- ==== Sys2Proof/Config.lean ====
section
/-! DEFINITION. The parameters: the valued ones of R6 as constants, the OPEN ones of R7 as a structure with the
spec's defaults, and the free values. -/

namespace Sys2Proof

/-- The controller's eleven registers, in the order of the offset table (R30). -/
inductive Reg where
  | cmd | rxdata | ctrl | ien | isr | status | txlvl | rxlvl | scllow | sclhigh | sdahold
  deriving DecidableEq, Repr

/-- The parameters the document leaves without a value (R7). `BASE` is `State.window`, since the host hands it over at
attach. -/
structure Config where
  offCmd : Nat
  offRxdata : Nat
  offCtrl : Nat
  offIen : Nat
  offIsr : Nat
  offStatus : Nat
  offTxlvl : Nat
  offRxlvl : Nat
  offScllow : Nat
  offSclhigh : Nat
  offSdahold : Nat
  cmdStart : Word
  cmdRstart : Word
  cmdStop : Word
  dirWrite : BitVec 1
  dirRead : BitVec 1
  /-- `OFF_POLL` is "one of the 11 offsets" (R7), so it is held as the register it names. -/
  offPoll : Reg
  txReady : Word
  rxReady : Word
  ctrlEnable : Word
  deriving DecidableEq, Repr

namespace Config

/-- The defaults of R7 (D1 to D5): the spec's own choice, which no statement may rest on. -/
def std : Config where
  offCmd := 0x00
  offRxdata := 0x04
  offCtrl := 0x08
  offIen := 0x0C
  offIsr := 0x10
  offStatus := 0x14
  offTxlvl := 0x18
  offRxlvl := 0x1C
  offScllow := 0x20
  offSclhigh := 0x24
  offSdahold := 0x28
  cmdStart := 0x00000200#32
  cmdRstart := 0x00000200#32
  cmdStop := 0x00000100#32
  dirWrite := 0#1
  dirRead := 1#1
  offPoll := .isr
  txReady := 0x00000001#32
  rxReady := 0x00000002#32
  ctrlEnable := 0x00000001#32

/-- The byte offset of a register from `BASE` (R30). -/
def off (c : Config) : Reg → Nat
  | .cmd => c.offCmd
  | .rxdata => c.offRxdata
  | .ctrl => c.offCtrl
  | .ien => c.offIen
  | .isr => c.offIsr
  | .status => c.offStatus
  | .txlvl => c.offTxlvl
  | .rxlvl => c.offRxlvl
  | .scllow => c.offScllow
  | .sclhigh => c.offSclhigh
  | .sdahold => c.offSdahold

/-! Parameters with a value (R6). -/

/-- `CORE_CLOCK_HZ`. -/
def coreClockHz : Nat := 100000000
/-- `BUS_DIV`: a divisor, not a frequency (90_conflicts.md C1). -/
def busDiv : Nat := 200000
/-- `HOLD_DIV`. -/
def holdDiv : Nat := 3333333
/-- `SCL_COUNT`, truncating division (D7). -/
def sclCount : Word := BitVec.ofNat 32 (coreClockHz / busDiv)
/-- `HOLD_COUNT`, truncating division (D7). -/
def holdCount : Word := BitVec.ofNat 32 (coreClockHz / holdDiv)
/-- `ACK_ALL`. -/
def ackAll : Word := 0xFFFFFFFF#32
/-- `CTRL_DISABLE`. -/
def ctrlDisable : Word := 0x00000000#32
/-- `SETTLE_US`. -/
def settleUs : Nat := 10
/-- `POLL_STEP_US`. -/
def pollStepUs : Nat := 1
/-- `POLL_MAX`. -/
def pollMax : Nat := 100000
/-- `WRITE_SETTLE_US`. -/
def writeSettleUs : Nat := 1
/-- `EEPROM_ADDR`. -/
def eepromAddr : BitVec 7 := 0x51#7
/-- `EEPROM_SIZE`: 256 is the only normative value (D22). -/
def eepromSize : Nat := 256
/-- `EEPROM_OFFSET`. -/
def eepromOffset : Byte := 0#8
/-- `FORMAT_ID_0`. -/
def formatId0 : Byte := 0#8
/-- `MAC_OFF`. -/
def macOff : Nat := 1
/-- `MAC_LEN`. -/
def macLen : Nat := 6
/-- `TAG_OFF`. -/
def tagOff : Nat := 7
/-- `TAG_LEN`. -/
def tagLen : Nat := 10

/-! Free values: constants with no body, so nothing can be proved of what they are. -/

/-- The answer of the unconstrained oracle E0 to a read that its tape does not answer: "a free draw of 32 bits, under no
law" (R60); the argument is `State.draws` (log entry 6). -/
opaque freeAnswer : Nat → Word
/-- A byte of `buf` where the spec lets it hold any value (R19, R43, U1, U2; log entries 3, 26); the arguments are
`State.draws` and the index. -/
opaque freeBufByte : Nat → Nat → Byte
/-- `remaining` after the reset event: unspecified in its range 0 to 256 (R12, R43; log entry 15). -/
opaque freeRemaining : Nat → Fin 257
/-- `poll_cnt` after the reset event: unspecified in its range 0 to 100 000 (R12, R43; log entry 15). -/
opaque freePollCnt : Nat → Fin 100001
/-- Whether `err` reads `TIMEOUT` after the reset event: unspecified (R12, R43; log entry 15). -/
opaque freeErrSet : Nat → Bool

end Config

end Sys2Proof
end

