-- ==== Sys2Proof/Syntax.lean ====
section
/-! DEFINITION. The syntax: phases, sub-phases, result kinds, and one constructor of Instr per row of
opcode_table.json. -/

namespace Sys2Proof

/-- The sixteen phases of R13, in code order. -/
inductive Phase where
  | idle | initDisable | initClklow | initClkhigh | initHold | initAck | initEnable | initSettle | preAck
  | selW | offset | selR | req | rcv | finDisable | done
  deriving DecidableEq, Repr

/-- The four sub-phases of R13, in code order. -/
inductive Sub where
  | poll | pollWait | xfer | settle
  deriving DecidableEq, Repr

/-- The four result kinds of R161, in code order. -/
inductive Kind where
  | ok | timeout | unrecognizedFormat | insufficientCapacity
  deriving DecidableEq, Repr

/-- The direction operand of an address phase (R81): `W` or `R`. -/
inductive Dir where
  | w | r
  deriving DecidableEq, Repr

/-- The five places of the sequence at which a command word is emitted (R76). -/
inductive Site where
  | selW | offset | selR | cont | last
  deriving DecidableEq, Repr

/-- One constructor per row of opcode_table.json. -/
inductive Instr where
  /-- `START a, d` (R111). -/
  | start (a : BitVec 7) (d : Dir)
  /-- `RSTART a, d` (R112). -/
  | rstart (a : BitVec 7) (d : Dir)
  /-- `DATA b` (R113). -/
  | data (b : Byte)
  /-- `DATA.STOP b` (R114). -/
  | dataStop (b : Byte)
  /-- `W_SEL_W` (R115). -/
  | wSelW
  /-- `W_OFFSET` (R116). -/
  | wOffset
  /-- `W_SEL_R` (R117). -/
  | wSelR
  /-- `W_CONT` (R118). -/
  | wCont
  /-- `W_LAST` (R119). -/
  | wLast
  /-- Phase `IDLE` (R128). -/
  | idle
  /-- Phase `INIT_DISABLE` (R129). -/
  | initDisable
  /-- Phase `INIT_CLKLOW` (R130). -/
  | initClklow
  /-- Phase `INIT_CLKHIGH` (R131). -/
  | initClkhigh
  /-- Phase `INIT_HOLD` (R132). -/
  | initHold
  /-- Phase `INIT_ACK` (R133). -/
  | initAck
  /-- Phase `INIT_ENABLE` (R134). -/
  | initEnable
  /-- Phase `INIT_SETTLE` (R135). -/
  | initSettle
  /-- Phase `PRE_ACK` (R136). -/
  | preAck
  /-- Phase `SEL_W` (R137). -/
  | selW
  /-- Phase `OFFSET` (R138). -/
  | offset
  /-- Phase `SEL_R` (R139). -/
  | selR
  /-- Phase `REQ` (R140). -/
  | req
  /-- Phase `RCV` (R141). -/
  | rcv
  /-- Phase `FIN_DISABLE` (R142). -/
  | finDisable
  /-- Phase `DONE` (R143). -/
  | done
  deriving DecidableEq, Repr

end Sys2Proof
end

