-- ==== Sys2Proof/WellFormed.lean ====
section
/-! DEFINITION. What is well formed: a configuration (the constraints of R7) and a command word (formats A and D,
R71, R72; every other word is reserved, R75). The operands of Instr are held in types of their own width (R73), so every
term of Instr is well formed by construction. -/

namespace Sys2Proof

/-- The eleven offsets in the order of R30. -/
def Config.offsets (c : Config) : List Nat :=
  [c.offCmd, c.offRxdata, c.offCtrl, c.offIen, c.offIsr, c.offStatus, c.offTxlvl, c.offRxlvl, c.offScllow,
    c.offSclhigh, c.offSdahold]

/-- "each has exactly one bit set" (R7). -/
def oneBit (m : Word) : Bool := m != 0#32 && (m &&& (m - 1#32)) == 0#32

/-- "each non-zero; none has a bit in [7:0]" (R7). -/
def flagMask (m : Word) : Bool := m != 0#32 && (m &&& 0xFF#32) == 0#32

/-- Offsets: "pairwise distinct; each a multiple of 4" (R7). -/
def Config.offsetsWf (c : Config) : Bool := decide c.offsets.Nodup && c.offsets.all (· % 4 == 0)

/-- Command masks: each a flag mask; `CMD_STOP` shares no bit with the other two; those two may be equal (R7). -/
def Config.masksWf (c : Config) : Bool :=
  flagMask c.cmdStart && flagMask c.cmdRstart && flagMask c.cmdStop && (c.cmdStop &&& c.cmdStart) == 0#32
    && (c.cmdStop &&& c.cmdRstart) == 0#32

/-- Ready masks: "each has exactly one bit set; they are distinct" (R7). -/
def Config.readyWf (c : Config) : Bool := oneBit c.txReady && oneBit c.rxReady && c.txReady != c.rxReady

/-- The constraints that rules rely on (R7, last column). -/
def Config.wf (c : Config) : Bool :=
  c.offsetsWf && c.masksWf && c.dirWrite != c.dirRead && c.readyWf && c.ctrlEnable != Config.ctrlDisable

/-- A word of format A or D (R71, R72): outside [7:0] it holds exactly one of the flag masks or nothing. -/
def commandWf (c : Config) (w : Word) : Bool :=
  let high := w &&& 0xFFFFFF00#32
  high == c.cmdStart || high == c.cmdRstart || high == c.cmdStop || high == 0#32

end Sys2Proof
end

