-- ==== Sys2Proof/Decode.lean ====
section
/-! DEFINITION. The codes of R13 and R161, the decoder of command words (R74, R75) and of phase codes, and the
encoder (R71 to R73). -/

namespace Sys2Proof

/-- The code of a phase (R13). -/
def Phase.code : Phase → BitVec 4
  | .idle => 0#4
  | .initDisable => 1#4
  | .initClklow => 2#4
  | .initClkhigh => 3#4
  | .initHold => 4#4
  | .initAck => 5#4
  | .initEnable => 6#4
  | .initSettle => 7#4
  | .preAck => 8#4
  | .selW => 9#4
  | .offset => 10#4
  | .selR => 11#4
  | .req => 12#4
  | .rcv => 13#4
  | .finDisable => 14#4
  | .done => 15#4

/-- The phase of a number below 16 (R13); a number above 15 is no phase code. -/
def Phase.ofNat? : Nat → Option Phase
  | 0 => some .idle
  | 1 => some .initDisable
  | 2 => some .initClklow
  | 3 => some .initClkhigh
  | 4 => some .initHold
  | 5 => some .initAck
  | 6 => some .initEnable
  | 7 => some .initSettle
  | 8 => some .preAck
  | 9 => some .selW
  | 10 => some .offset
  | 11 => some .selR
  | 12 => some .req
  | 13 => some .rcv
  | 14 => some .finDisable
  | 15 => some .done
  | _ => none

/-- The code of a sub-phase (R13). -/
def Sub.code : Sub → BitVec 2
  | .poll => 0#2
  | .pollWait => 1#2
  | .xfer => 2#2
  | .settle => 3#2

/-- The code of a result kind (R161). -/
def Kind.code : Kind → BitVec 2
  | .ok => 0#2
  | .timeout => 1#2
  | .unrecognizedFormat => 2#2
  | .insufficientCapacity => 3#2

/-- The instruction a phase selects (R13, R127). -/
def Phase.instr : Phase → Instr
  | .idle => .idle
  | .initDisable => .initDisable
  | .initClklow => .initClklow
  | .initClkhigh => .initClkhigh
  | .initHold => .initHold
  | .initAck => .initAck
  | .initEnable => .initEnable
  | .initSettle => .initSettle
  | .preAck => .preAck
  | .selW => .selW
  | .offset => .offset
  | .selR => .selR
  | .req => .req
  | .rcv => .rcv
  | .finDisable => .finDisable
  | .done => .done

/-- A LOAD is running: `0 < phase < 15` (R65). -/
def Phase.busy (p : Phase) : Bool := p != .idle && p != .done

/-- The word instruction emitted at a site (R76). -/
def Site.instr : Site → Instr
  | .selW => .wSelW
  | .offset => .wOffset
  | .selR => .wSelR
  | .cont => .wCont
  | .last => .wLast

/-- The two kinds of code of opcode_table.json: a 32-bit command word and a 4-bit phase code. -/
inductive Code where
  | command (w : Word)
  | phase (p : BitVec 4)
  deriving DecidableEq, Repr

/-- Why a command word is reserved (R75). -/
inductive Reserved where
  /-- A bit outside the flags and [7:0] is set. -/
  | outsideFields
  /-- A format A word with STOP. -/
  | stopInAddressPhase
  /-- START and REPEATED-START both set although their masks differ. -/
  | startAndRstart
  /-- A flag whose mask has several bits is set in part. -/
  | partialFlag
  deriving DecidableEq, Repr

/-- What a word alone does not tell (R74, R76): at which place of the sequence it was emitted, if at one, and whether the
bus is held. -/
structure Context where
  site : Option Site
  held : Bool
  deriving DecidableEq, Repr

/-- The direction bit of an address phase (R71). -/
def Config.dirBit (c : Config) : Dir → BitVec 1
  | .w => c.dirWrite
  | .r => c.dirRead

/-- Format A (R71, R73): `flag | zext_32({address, dir})`. -/
def addressWord (c : Config) (flag : Word) (a : BitVec 7) (d : Dir) : Word :=
  flag ||| (a ++ c.dirBit d).setWidth 32

/-- Format D (R72, R73): `flag | zext_32(data)`. -/
def dataWord (flag : Word) (b : Byte) : Word := flag ||| b.setWidth 32

/-- The word emitted at a site (R76, R115 to R119). -/
def siteWord (c : Config) : Site → Word
  | .selW => addressWord c c.cmdStart Config.eepromAddr .w
  | .offset => dataWord 0#32 Config.eepromOffset
  | .selR => addressWord c c.cmdRstart Config.eepromAddr .r
  | .cont => dataWord 0#32 0#8
  | .last => dataWord c.cmdStop 0#8

/-- The direction field of a format A word, read back (R73). -/
def wordDir (c : Config) (w : Word) : Dir := if w.extractLsb' 0 1 = c.dirWrite then .w else .r

/-- The general form of a command word (R74), `held` saying whether the bus is held. -/
def decodeForm (c : Config) (held : Bool) (w : Word) : Except Reserved Instr :=
  let flags := w &&& (c.cmdStart ||| c.cmdRstart ||| c.cmdStop)
  if w &&& ~~~(c.cmdStart ||| c.cmdRstart ||| c.cmdStop ||| 0xFF#32) ≠ 0#32 then .error .outsideFields
  else if flags = 0#32 then .ok (.data (w.extractLsb' 0 8))
  else if flags = c.cmdStop then .ok (.dataStop (w.extractLsb' 0 8))
  else if flags = c.cmdStart ∧ (c.cmdStart ≠ c.cmdRstart ∨ held = false) then
    .ok (.start (w.extractLsb' 1 7) (wordDir c w))
  else if flags = c.cmdRstart then .ok (.rstart (w.extractLsb' 1 7) (wordDir c w))
  else if flags &&& c.cmdStart = c.cmdStart ∨ flags &&& c.cmdRstart = c.cmdRstart then
    if flags &&& c.cmdStop ≠ 0#32 then .error .stopInAddressPhase else .error .startAndRstart
  else .error .partialFlag

/-- A command word in its context: the word its site emits is that site's instruction (R76), any other word its general
form (R74). -/
def decodeCommand (c : Config) (k : Context) (w : Word) : Except Reserved Instr :=
  match k.site with
  | some x => if w = siteWord c x then .ok x.instr else decodeForm c k.held w
  | none => decodeForm c k.held w

/-- The decoder, total on every code: any command word in its context, any phase code. -/
def decode (c : Config) (k : Context) : Code → Except Reserved Instr
  | .command w => decodeCommand c k w
  | .phase p =>
    match Phase.ofNat? p.toNat with
    | some q => .ok q.instr
    | none => .error .outsideFields

/-- The site whose word a command word is, where the table alone is asked (opcode_table.json lists the exact words beside
the general forms; the exact row is taken; `W_OFFSET` stands before `W_CONT`, which is the same word). -/
def tableSite (c : Config) (w : Word) : Option Site :=
  if w = siteWord c .selW then some .selW
  else if w = siteWord c .offset then some .offset
  else if w = siteWord c .selR then some .selR
  else if w = siteWord c .last then some .last
  else none

/-- What the decoder reads from a table word (the host's question): the phase rows have 4 bits, one byte, the command rows
32. The context is the one the table gives, with the bus idle. -/
def decodeTableWord (nbits w : Nat) : Option Instr :=
  if nbits ≤ 8 then (Phase.ofNat? w).map Phase.instr
  else if w < 2 ^ 32 then
    let v : Word := BitVec.ofNat 32 w
    match decode Config.std ⟨tableSite Config.std v, false⟩ (.command v) with
    | .ok i => some i
    | .error _ => none
  else none

/-! The encoder. -/

/-- The code of an instruction (R71 to R73, R76, R13). -/
def encode (c : Config) : Instr → Code
  | .start a d => .command (addressWord c c.cmdStart a d)
  | .rstart a d => .command (addressWord c c.cmdRstart a d)
  | .data b => .command (dataWord 0#32 b)
  | .dataStop b => .command (dataWord c.cmdStop b)
  | .wSelW => .command (siteWord c .selW)
  | .wOffset => .command (siteWord c .offset)
  | .wSelR => .command (siteWord c .selR)
  | .wCont => .command (siteWord c .cont)
  | .wLast => .command (siteWord c .last)
  | .idle => .phase 0#4
  | .initDisable => .phase 1#4
  | .initClklow => .phase 2#4
  | .initClkhigh => .phase 3#4
  | .initHold => .phase 4#4
  | .initAck => .phase 5#4
  | .initEnable => .phase 6#4
  | .initSettle => .phase 7#4
  | .preAck => .phase 8#4
  | .selW => .phase 9#4
  | .offset => .phase 10#4
  | .selR => .phase 11#4
  | .req => .phase 12#4
  | .rcv => .phase 13#4
  | .finDisable => .phase 14#4
  | .done => .phase 15#4

/-- The context in which an instruction's code is read as that instruction (R74, R76): `START` on an idle bus, `RSTART` on
a held one, each emitted word at its site. -/
def Instr.context : Instr → Context
  | .rstart _ _ => ⟨none, true⟩
  | .wSelW => ⟨some .selW, false⟩
  | .wOffset => ⟨some .offset, true⟩
  | .wSelR => ⟨some .selR, true⟩
  | .wCont => ⟨some .cont, true⟩
  | .wLast => ⟨some .last, true⟩
  | _ => ⟨none, false⟩

end Sys2Proof
end

