-- ==== Sys2Proof/Machine/State.lean ====
section
/-! DEFINITION. The state as plain data, the reasons a step can stop, and the state after reset. -/

namespace Sys2Proof.Machine

/-- Byte memory as (address, byte) cells, addresses strictly rising; an unlisted address holds no known value. -/
abbrev Mem := List Host.Cell

/-- The eleven controller registers as the block sees them: each cell holds the value that crossed the block's port last
at that register, written or read (R30 to R41; log entry 4). -/
structure Regs where
  cmd : Word
  rxdata : Word
  ctrl : Word
  ien : Word
  isr : Word
  status : Word
  txlvl : Word
  rxlvl : Word
  scllow : Word
  sclhigh : Word
  sdahold : Word
  deriving DecidableEq, Repr

/-- One event of the trace (R57), `off` the register's byte offset. -/
inductive Event where
  /-- `W(off, v)`. -/
  | w (off : Nat) (v : Word)
  /-- `R(off, v)`. -/
  | r (off : Nat) (v : Word)
  /-- `D(t)`, in microseconds. -/
  | d (us : Nat)
  deriving DecidableEq, Repr

/-- Who holds the I2C bus in E2 (R63). -/
inductive Bus where
  | idle | write | read | nodev
  deriving DecidableEq, Repr

/-- The ideal test double E1 (R62): its two parameters, and what it counts to number the polls and the data reads of a
LOAD (log entry 17). -/
structure Double where
  img : Vector Byte 256
  stuck : Option Nat
  polls : Nat
  inPoll : Bool
  dataReads : Nat
  deriving DecidableEq, Repr

/-- The reference device E2 (R63); `present` is false in the variant of R148 in which no device answers, `lag` holds the
latency draws (an entry true: both ready bits read clear once) (log entry 18). -/
structure Device where
  cEn : Bool
  bus : Bus
  ptr : Byte
  rxValid : Bool
  rxByte : Byte
  rom : Vector Byte 256
  tLow : Word
  tHigh : Word
  tHold : Word
  present : Bool
  lag : List Bool
  deriving DecidableEq, Repr

/-- The environment behind the window: E0 with the answers it gives first (R60), E1 (R62) or E2 (R63). -/
inductive Env where
  | oracle (tape : List Word)
  | double (e : Double)
  | device (e : Device)
  deriving DecidableEq, Repr

/-- One move of the host (R126, R150, R170, R185). -/
inductive HostMove where
  /-- The host does nothing in this step (log entry 13). -/
  | quiet
  /-- The host hands over the mapped window at `base`. -/
  | attach (base : Nat)
  /-- The host takes the window away (R68; log entry 30). -/
  | detach
  /-- The event `load_start` (R126). -/
  | loadStart
  /-- The host reads `done` (R170). -/
  | readDone
  /-- The host reads `err` (R170). -/
  | readErr
  /-- MAC_ADDRESS (R152). -/
  | macAddress
  /-- ASSET_TAG with the caller's buffer and its capacity (R153). -/
  | assetTag (out : List Byte) (cap : Nat)
  /-- The reset event (R185, R186). -/
  | reset
  deriving DecidableEq, Repr

/-- What the host gets back (R170). -/
inductive Reply where
  | doneFlag (b : Bool)
  | errCode (k : Kind)
  /-- The result kind and, when it is `ok`, the six bytes. -/
  | mac (k : Kind) (bytes : List Byte)
  /-- The result kind and the caller's buffer after the call. -/
  | tag (k : Kind) (out : List Byte)
  deriving DecidableEq, Repr

/-- The machine's state, without the parameters of R6 and R7, which are no fields of it (R23): the block's registers (R12),
the controller's registers as the block sees them (R30), the environment with the command in flight (R42, R60), the host's
side (R170) and the observation fields of the model (the trace of R57, the count of free draws). -/
structure Block where
  phase : Phase
  sub : Sub
  remaining : BitVec 9
  pollCnt : BitVec 17
  err : Kind
  done : Bool
  buf : Mem
  regs : Regs
  inFlight : Option Word
  env : Env
  window : Option Nat
  host : List HostMove
  replies : List Reply
  trace : List Event
  draws : Nat
  deriving DecidableEq, Repr

/-- The machine's state and, beside it, the configuration under which it steps (R7): the host's step takes one argument, so
the parameter travels with the state; no step writes it (R23; log entry 1). -/
structure State extends Block where
  cfg : Config
  deriving DecidableEq, Repr

/-- A mapped window at `base`, where `base` is a multiple of 4 (R7, R56); no other base is a window. -/
def windowAt (base : Nat) : Option Nat := if base % 4 = 0 then some base else none

/-- Why the machine stops with a fault. -/
inductive Fault where
  /-- Raised by phase `RCV` in sub-phase `SETTLE`, for which R127 has no row and which no run reaches ("never `RCV`", R13).
  Safe. -/
  | noTransitionRow
  /-- Raised by the transfer of phase `RCV` when `EEPROM_SIZE - remaining` is outside 0 to 255, which no run reaches
  (R144). Safe. -/
  | bufIndexOutOfRange
  deriving DecidableEq, Repr

/-- Why the machine gives a situation no meaning. -/
inductive Refusal where
  /-- Raised by `exec` for an instruction without a meaning yet; no instruction of this model. Safe. -/
  | notModelled (mnemonic : String)
  /-- Raised by `step` when the command in flight is a reserved word (R75, U9). Safe. -/
  | reservedCommand (why : Reserved)
  /-- Raised by a register access or a `load_start` without a mapped window (R68, U14), and by a detach without one, which is
  the model's choice (log entry 14). Safe. -/
  | notAttached
  /-- Raised by an attach while a window is mapped, which is the model's choice (log entry 14). Safe. -/
  | alreadyAttached
  /-- Raised by an attach whose base is not a multiple of 4 (R7, R56). Safe. -/
  | misalignedBase
  /-- Raised by a detach while a LOAD runs (R68, U14). Safe. -/
  | detachDuringLoad
  /-- Raised by `load_start` while a LOAD runs (R126, U15). Safe. -/
  | loadStartDuringLoad
  /-- Raised by a read of `err` or an accessor while `done = 0` (R19, R150, U2). Safe. -/
  | readBeforeDone
  /-- Raised by E1 for a read it has no answer for (R62). Safe. -/
  | doubleNoAnswer
  /-- Raised by E2 for a value of control other than the two of R33 (R63). Safe. -/
  | deviceControlValue
  /-- Raised by E2 for a timing register written while the controller is enabled (R63, U16). Safe. -/
  | deviceTimingWhileEnabled
  /-- Raised by E2 for a command while the controller is disabled (R63). Safe. -/
  | deviceCommandWhileDisabled
  /-- Raised by E2 for a data phase on an idle bus (R63). Safe. -/
  | deviceDataOnIdleBus
  /-- Raised by E2 for a read of received-data with no byte waiting (R63). Safe. -/
  | deviceNoByteWaiting
  /-- Raised by E2 for an access it gives no meaning (R63, U7, U8). Safe. -/
  | deviceNoMeaning
  deriving DecidableEq, Repr

/-- The state right after reset of a block with the window at `base` (R43, R56, R185): `IDLE`, `POLL`, `done = 0`. The values
of `err`, `remaining`, `poll_cnt`, the register cells and the environment are the model's (log entries 2, 4, 5); no byte of
`buf` is known. -/
def Block.reset (base : Nat) : Block where
  phase := .idle
  sub := .poll
  remaining := 0#9
  pollCnt := 0#17
  err := .ok
  done := false
  buf := []
  regs := ⟨0#32, 0#32, 0#32, 0#32, 0#32, 0#32, 0#32, 0#32, 0#32, 0#32, 0#32⟩
  inFlight := none
  env := .oracle []
  window := windowAt base
  host := []
  replies := []
  trace := []
  draws := 0

/-- A state under a configuration. -/
def Block.under (c : Config) (b : Block) : State := { toBlock := b, cfg := c }

/-- The state right after reset under the configuration `c`, the window at `base` (R23). -/
def State.resetWith (c : Config) (base : Nat) : State := (Block.reset base).under c

/-- The state right after reset under the spec's defaults, the window at 0 (log entries 1, 14). -/
def State.reset : State := State.resetWith Config.std 0

end Sys2Proof.Machine
end

