-- ==== Sys2Proof/Machine/Mem.lean ====
section
/-! DEFINITION. Operations on byte memory and on the register cells. -/

namespace Sys2Proof.Machine

/-- The byte known at an address, if one was written. -/
def Mem.get? : Mem → Nat → Option Byte
  | [], _ => none
  | (a, b) :: m, i => if a = i then some b else Mem.get? m i

/-- Writes one byte, keeping the addresses strictly rising. -/
def Mem.set : Mem → Nat → Byte → Mem
  | [], i, v => [(i, v)]
  | (a, b) :: m, i, v =>
    if i < a then (i, v) :: (a, b) :: m
    else if i = a then (i, v) :: m
    else (a, b) :: Mem.set m i v

/-- Every address is below `n`. -/
def Mem.below (n : Nat) (m : Mem) : Bool := m.all (fun c => decide (c.1 < n))

/-- Every address is above `lo`, if there is one, and the addresses rise strictly. -/
def Mem.rising : Option Nat → Mem → Bool
  | _, [] => true
  | none, (a, _) :: m => Mem.rising (some a) m
  | some lo, (a, _) :: m => decide (lo < a) && Mem.rising (some a) m

/-- The canonical form of `buf`: addresses strictly rising, all below `EEPROM_SIZE` (R18, R54). -/
def Mem.wf (m : Mem) : Bool := Mem.rising none m && Mem.below Config.eepromSize m

/-- The cell of a register. -/
def Regs.get (g : Regs) : Reg → Word
  | .cmd => g.cmd
  | .rxdata => g.rxdata
  | .ctrl => g.ctrl
  | .ien => g.ien
  | .isr => g.isr
  | .status => g.status
  | .txlvl => g.txlvl
  | .rxlvl => g.rxlvl
  | .scllow => g.scllow
  | .sclhigh => g.sclhigh
  | .sdahold => g.sdahold

/-- The cells after a value crossed the port at a register. -/
def Regs.set (g : Regs) (r : Reg) (v : Word) : Regs :=
  match r with
  | .cmd => { g with cmd := v }
  | .rxdata => { g with rxdata := v }
  | .ctrl => { g with ctrl := v }
  | .ien => { g with ien := v }
  | .isr => { g with isr := v }
  | .status => { g with status := v }
  | .txlvl => { g with txlvl := v }
  | .rxlvl => { g with rxlvl := v }
  | .scllow => { g with scllow := v }
  | .sclhigh => { g with sclhigh := v }
  | .sdahold => { g with sdahold := v }

end Sys2Proof.Machine
end

