-- ==== Sys2Proof/Machine/Environment.lean ====
section
/-! DEFINITION. What stands behind the window: how E0, E1 and E2 answer a read, absorb a write and take a command
(R60, R62, R63). -/

namespace Sys2Proof.Machine

/-! E1, the ideal test double (R62). -/

/-- The ready bit that poll `k` awaits: the receive polls are those numbered `2j+3` (R62). -/
def awaitedBit (c : Config) (k : Nat) : Word := if 5 ≤ k ∧ k % 2 = 1 then c.rxReady else c.txReady

/-- E1's answer to a poll read: both ready bits, but during the stuck poll the awaited one clear (R62). -/
def Double.pollAnswer (c : Config) (e : Double) (k : Nat) : Word :=
  if e.stuck = some k then (c.txReady ||| c.rxReady) &&& ~~~(awaitedBit c k) else c.txReady ||| c.rxReady

/-- A poll begins with the first poll read after another access (R62, log entry 17). -/
def Double.pollNumber (e : Double) : Nat := if e.inPoll then e.polls else e.polls + 1

/-- E1 answers a read of the poll register or of received-data; it has no other answer (R62). DESIGN CHOICE: where
`OFF_POLL` is received-data the read is a poll read (log entry 19). -/
def Double.answer (c : Config) (r : Reg) (e : Double) : Except Refusal (Word × Double) :=
  if r = c.offPoll then
    .ok (e.pollAnswer c e.pollNumber, { e with polls := e.pollNumber, inPoll := true })
  else if r = .rxdata then
    if h : e.dataReads < 256 then
      .ok ((e.img[e.dataReads]).setWidth 32, { e with dataReads := e.dataReads + 1, inPoll := false })
    else .error .doubleNoAnswer
  else .error .doubleNoAnswer

/-- E1 ignores writes but for its counting: any write ends a poll, and the disabling write, which is the first access of
every LOAD (R129), starts the numbering anew (log entry 17). -/
def Double.absorb (r : Reg) (v : Word) (e : Double) : Double :=
  if r = .ctrl ∧ v = Config.ctrlDisable then { e with polls := 0, inPoll := false, dataReads := 0 }
  else { e with inPoll := false }

/-! E2, the reference device (R63). -/

/-- The two ready bits as E2 shows them (R63). -/
def Device.readyBits (c : Config) (e : Device) : Word :=
  (if e.cEn then c.txReady else 0#32) ||| (if e.rxValid then c.rxReady else 0#32)

/-- E2's answer to a poll read; a latency draw, where there is one, may show both bits clear (R63). -/
def Device.pollAnswer (c : Config) (e : Device) : Word × Device :=
  match e.lag with
  | [] => (e.readyBits c, e)
  | late :: rest => (if late then 0#32 else e.readyBits c, { e with lag := rest })

/-- E2 answers a poll read and a read of received-data, which consumes the byte; it refuses every other read (R63). DESIGN
CHOICE: R7 lets `OFF_POLL` name any register, also command, control, clock-low, clock-high, data-hold or received-data, of
which R63 says something else; the read of the poll register is then a poll read (log entry 19). -/
def Device.answer (c : Config) (r : Reg) (e : Device) : Except Refusal (Word × Device) :=
  if r = c.offPoll then .ok (e.pollAnswer c)
  else if r = .rxdata then
    if e.rxValid then .ok (e.rxByte.setWidth 32, { e with rxValid := false }) else .error .deviceNoByteWaiting
  else .error .deviceNoMeaning

/-- E2 absorbs a write; a command is only latched here and runs in the controller's own step (R63, log entry 7). -/
def Device.absorb (c : Config) (r : Reg) (v : Word) (e : Device) : Except Refusal Device :=
  match r with
  | .ctrl =>
    if v = c.ctrlEnable then .ok { e with cEn := true }
    else if v = Config.ctrlDisable then .ok { e with cEn := false, bus := .idle, rxValid := false }
    else .error .deviceControlValue
  | .scllow => if e.cEn then .error .deviceTimingWhileEnabled else .ok { e with tLow := v }
  | .sclhigh => if e.cEn then .error .deviceTimingWhileEnabled else .ok { e with tHigh := v }
  | .sdahold => if e.cEn then .error .deviceTimingWhileEnabled else .ok { e with tHold := v }
  | .isr => .ok e
  | .cmd => .ok e
  | .rxdata | .ien | .status | .txlvl | .rxlvl => .error .deviceNoMeaning

/-- The bus after an address phase (R63, R111): held in the given direction if the EEPROM is addressed and answers. -/
def Device.select (e : Device) (a : BitVec 7) (d : Dir) : Bus :=
  if a = Config.eepromAddr ∧ e.present = true then
    match d with
    | .w => .write
    | .r => .read
  else .nodev

/-- E2 takes a format A command (R63, R111, R112); `ptr` is kept. -/
def Device.addressPhase (a : BitVec 7) (d : Dir) (e : Device) : Except Refusal Device :=
  if e.cEn then .ok { e with bus := e.select a d } else .error .deviceCommandWhileDisabled

/-- The EEPROM byte at the device's internal offset. -/
def Device.romByte (e : Device) : Byte := e.rom[e.ptr.toNat]'(e.ptr.isLt)

/-- What a data phase moves, by bus state (R63, R113); none on an idle bus. -/
def Device.moveByte (b : Byte) (e : Device) : Option Device :=
  match e.bus with
  | .write => some { e with ptr := b }
  | .read => some { e with rxByte := e.romByte, ptr := e.ptr + 1#8, rxValid := true }
  | .nodev => some e
  | .idle => none

/-- E2 takes a format D command (R63, R113, R114); STOP releases the bus after the byte. -/
def Device.dataPhase (b : Byte) (stop : Bool) (e : Device) : Except Refusal Device :=
  if e.cEn then
    match e.moveByte b with
    | some e' => .ok (if stop then { e' with bus := .idle } else e')
    | none => .error .deviceDataOnIdleBus
  else .error .deviceCommandWhileDisabled

/-! The environment as a whole. -/

/-- The answer to a read of a register: E0 gives its tape and then free words (R60), `n` being the count of draws. -/
def Env.answer (c : Config) (n : Nat) (r : Reg) : Env → Except Refusal (Word × Env)
  | .oracle [] => .ok (Config.freeAnswer n, .oracle [])
  | .oracle (v :: tape) => .ok (v, .oracle tape)
  | .double e =>
    match e.answer c r with
    | .ok (v, e') => .ok (v, .double e')
    | .error x => .error x
  | .device e =>
    match e.answer c r with
    | .ok (v, e') => .ok (v, .device e')
    | .error x => .error x

/-- The environment after a write: E0 ignores it (R60). -/
def Env.absorb (c : Config) (r : Reg) (v : Word) : Env → Except Refusal Env
  | .oracle tape => .ok (.oracle tape)
  | .double e => .ok (.double (e.absorb r v))
  | .device e =>
    match e.absorb c r v with
    | .ok e' => .ok (.device e')
    | .error x => .error x

/-- The environment after the controller took a format A command; E0 and E1 give commands no effect (R60, R62). -/
def Env.addressPhase (a : BitVec 7) (d : Dir) : Env → Except Refusal Env
  | .oracle tape => .ok (.oracle tape)
  | .double e => .ok (.double e)
  | .device e =>
    match e.addressPhase a d with
    | .ok e' => .ok (.device e')
    | .error x => .error x

/-- The environment after the controller took a format D command; E0 and E1 give commands no effect (R60, R62). -/
def Env.dataPhase (b : Byte) (stop : Bool) : Env → Except Refusal Env
  | .oracle tape => .ok (.oracle tape)
  | .double e => .ok (.double e)
  | .device e =>
    match e.dataPhase b stop with
    | .ok e' => .ok (.device e')
    | .error x => .error x

/-- Whether the bus is held, as far as the environment has a bus (R42 (b), R63); E0 and E1 have none (log entry 8). -/
def Env.held : Env → Bool
  | .oracle _ => false
  | .double _ => false
  | .device e => e.bus != .idle

end Sys2Proof.Machine
end

