-- ==== Sys2Proof/Machine/Operands.lean ====
section
/-! DEFINITION. Operand forms: the low byte of a received word, the buffer index, and which word a phase emits. -/

namespace Sys2Proof.Machine

/-- RECV "returns its low byte": `v[7:0]` (R100, U4). -/
def lowByte (v : Word) : Byte := v.extractLsb' 0 8

/-- The buffer index `EEPROM_SIZE - remaining` on naturals, where it lies in 0 to 255 (R144). -/
def bufIndex (remaining : BitVec 9) : Option Nat :=
  if 1 ≤ remaining.toNat ∧ remaining.toNat ≤ Config.eepromSize then some (Config.eepromSize - remaining.toNat) else none

/-- The site at which phase `REQ` emits: the last request when `remaining = 1` (R140). -/
def reqSite (remaining : BitVec 9) : Site := if remaining = 1#9 then .last else .cont

/-- The site of the word a phase emits (R76). -/
def siteOf (p : Phase) (remaining : BitVec 9) : Option Site :=
  match p with
  | .selW => some .selW
  | .offset => some .offset
  | .selR => some .selR
  | .req => some (reqSite remaining)
  | .idle | .initDisable | .initClklow | .initClkhigh | .initHold | .initAck | .initEnable | .initSettle | .preAck
  | .rcv | .finDisable | .done => none

end Sys2Proof.Machine
end

