-- ==== Sys2Proof/Machine/Flags.lean ====
section
/-! DEFINITION. The tests and flags of R22: the ready test of a poll, and the rules by which `err` and `done` are
written. -/

namespace Sys2Proof.Machine

/-- "`(v & mask) != 0`": only bits of the mask matter (R78, R91). -/
def ready (mask v : Word) : Bool := (v &&& mask) != 0#32

/-- The bound of a poll: the incremented count equals `POLL_MAX` (R91). -/
def pollExhausted (n : BitVec 17) : Bool := n == BitVec.ofNat 17 Config.pollMax

/-- At `load_start`: `done <- 0`, `err <- OK` (R126). -/
def State.flagsAtStart (s : State) : State := { s with done := false, err := .ok }

/-- At the fail transition: `err <- TIMEOUT` (R142). -/
def State.flagTimeout (s : State) : State := { s with err := .timeout }

/-- At the end of a LOAD: `done <- 1`, `err` kept (R142). -/
def State.flagDone (s : State) : State := { s with done := true }

end Sys2Proof.Machine
end

