-- ==== Sys2Proof/Machine/Ops.lean ====
section
/-! DEFINITION. The named operations: register access and delay with their events, the moves of the phase register,
the bounded poll, the failure path, SEND and RECV as small steps, the controller taking a command, the accessors, the
host's moves, and fetching the next instruction. -/

namespace Sys2Proof.Machine

/-- Continues after an outcome that is a next state. -/
def thenDo (o : Host.Outcome State Fault Refusal) (f : State → Host.Outcome State Fault Refusal) :
    Host.Outcome State Fault Refusal :=
  match o with
  | .next s => f s
  | .fault x => .fault x
  | .refused x => .refused x

/-! Updates of the state. -/

/-- One event at the end of the trace (R57). -/
def State.emit (e : Event) (s : State) : State := { s with trace := s.trace ++ [e] }

/-- `phase <- p`, `sub <- q` (R9). -/
def State.goto (p : Phase) (q : Sub) (s : State) : State := { s with phase := p, sub := q }

/-- `poll_cnt <- n`. -/
def State.setPollCnt (n : BitVec 17) (s : State) : State := { s with pollCnt := n }

/-- `remaining <- n`. -/
def State.setRemaining (n : BitVec 9) (s : State) : State := { s with remaining := n }

/-- `buf[i] <- b` (R9). -/
def State.setBuf (i : Nat) (b : Byte) (s : State) : State := { s with buf := s.buf.set i b }

/-- The environment after an access. -/
def State.setEnv (e : Env) (s : State) : State := { s with env := e }

/-- The register cell after a value crossed the port (log entry 4). -/
def State.setReg (r : Reg) (v : Word) (s : State) : State := { s with regs := s.regs.set r v }

/-- The command in flight (R42 (a)). -/
def State.setInFlight (w : Option Word) (s : State) : State := { s with inFlight := w }

/-- Every byte of `buf` may hold any value from here on (R19, D14, U1; log entry 26). -/
def State.forgetBuf (s : State) : State := { s with buf := [] }

/-- How a LOAD ends: `done <- 1`, and after a failure all of `buf` is invalid (R19, R142, R164). -/
def State.endLoad (s : State) : State := (if s.err = .ok then s else s.forgetBuf).flagDone

/-- One more free value drawn. -/
def State.drawn (s : State) : State := { s with draws := s.draws + 1 }

/-- Entry into a polling phase: `poll_cnt <- 0`, sub-phase `POLL` (R15, R99). -/
def State.enterPoll (p : Phase) (s : State) : State := (s.setPollCnt 0#17).goto p .poll

/-! Register access and delay (R50, R51, R90). -/

/-- A write to command hands the controller one command (R31); a write elsewhere hands it none. -/
def State.latch (r : Reg) (v : Word) (s : State) : State := if r = .cmd then s.setInFlight (some v) else s

/-- `RegWrite` of R51: one write of the window, one event, the environment absorbs it. -/
def regWrite (r : Reg) (v : Word) (s : State) : Host.Outcome State Fault Refusal :=
  match s.window with
  | none => .refused .notAttached
  | some _ =>
    match s.env.absorb s.cfg r v with
    | .error x => .refused x
    | .ok e => .next ((((s.setEnv e).setReg r v).emit (.w (s.cfg.off r) v)).latch r v)

/-- `RegRead` of R50: one read of the window, one event, the value is the environment's. -/
def regRead (r : Reg) (s : State) : Except Refusal (Word × State) :=
  match s.window with
  | none => .error .notAttached
  | some _ =>
    match s.env.answer s.cfg s.draws r with
    | .error x => .error x
    | .ok (v, e) => .ok (v, (((s.setEnv e).setReg r v).emit (.r (s.cfg.off r) v)).drawn)

/-- `Delay` of R90: an event, no other change. -/
def delay (us : Nat) (s : State) : State := s.emit (.d us)

/-! The single writes of the engine (R92 to R97). -/

/-- ACK_STATUS (R92). -/
def ackStatus (s : State) : Host.Outcome State Fault Refusal := regWrite .isr Config.ackAll s

/-- CTRL_DISABLE (R93). -/
def ctrlDisable (s : State) : Host.Outcome State Fault Refusal := regWrite .ctrl Config.ctrlDisable s

/-- CTRL_ENABLE (R94). -/
def ctrlEnable (s : State) : Host.Outcome State Fault Refusal := regWrite .ctrl s.cfg.ctrlEnable s

/-- SET_CLKLOW (R95). -/
def setClklow (s : State) : Host.Outcome State Fault Refusal := regWrite .scllow Config.sclCount s

/-- SET_CLKHIGH (R96). -/
def setClkhigh (s : State) : Host.Outcome State Fault Refusal := regWrite .sclhigh Config.sclCount s

/-- SET_HOLD (R97). -/
def setHold (s : State) : Host.Outcome State Fault Refusal := regWrite .sdahold Config.holdCount s

/-! The failure path and the start of a LOAD. -/

/-- The fail transition (R142, R164), the one exception entry of the block: `err <- TIMEOUT`, go to `FIN_DISABLE`; nothing
else changes. There is no return from it (R168). That `buf` is invalid then is `State.bufByte` and `State.endLoad`. -/
def failLoad (s : State) : State := s.flagTimeout.goto .finDisable .poll

/-- What an accepted `load_start` does (R126); the window must be valid. No byte of `buf` is cleared, and while `done = 0`
each may hold any value (R19). -/
def beginLoad (s : State) : Host.Outcome State Fault Refusal :=
  match s.window with
  | none => .refused .notAttached
  | some _ => .next (s.flagsAtStart.forgetBuf.goto .initDisable .poll)

/-- Phases `IDLE` and `DONE`: no access; a waiting `load_start` begins a LOAD (R128, R143). -/
def awaitStart (s : State) : Host.Outcome State Fault Refusal :=
  match s.host with
  | .loadStart :: rest => beginLoad { s with host := rest }
  | _ => .next s

/-! The bounded poll, SEND and RECV as small steps (R91, R99, R100). -/

/-- Sub-phase `POLL` of phase `p`: read the poll register and test the awaited bit. -/
def pollRead (p : Phase) (mask : Word) (s : State) : Host.Outcome State Fault Refusal :=
  match regRead s.cfg.offPoll s with
  | .error x => .refused x
  | .ok (v, t) => .next (t.goto p (if ready mask v then .xfer else .pollWait))

/-- Sub-phase `POLL_WAIT` of phase `p`: wait, count, and fail when the bound is reached. -/
def pollWait (p : Phase) (s : State) : State :=
  let t := (delay Config.pollStepUs s).setPollCnt (s.pollCnt + 1#17)
  if pollExhausted t.pollCnt then failLoad t else t.goto p .poll

/-- The small steps of `SEND(w)` in phase `p`; `after` is what the phase does when it ends with ok (R99). -/
def sendPhase (p : Phase) (w : Word) (after : State → State) (s : State) : Host.Outcome State Fault Refusal :=
  match s.sub with
  | .poll => pollRead p s.cfg.txReady s
  | .pollWait => .next (pollWait p s)
  | .xfer => thenDo (regWrite .cmd w s) fun t => .next (t.goto p .settle)
  | .settle => .next (after (delay Config.writeSettleUs s))

/-- What phase `RCV` does with the received word: store the low byte at index `i`, count down, clear `poll_cnt`, loop or
end (R127, R141; log entry 29 on R45). -/
def storeByte (i : Nat) (v : Word) (s : State) : State :=
  let t := ((s.setBuf i (lowByte v)).setRemaining (s.remaining - 1#9)).setPollCnt 0#17
  if t.remaining = 0#9 then t.goto .finDisable .poll else t.goto .req .poll

/-- The small steps of RECV in phase `RCV` (R100, R141). -/
def recvPhase (s : State) : Host.Outcome State Fault Refusal :=
  match s.sub with
  | .poll => pollRead .rcv s.cfg.rxReady s
  | .pollWait => .next (pollWait .rcv s)
  | .xfer =>
    match bufIndex s.remaining with
    | none => .fault .bufIndexOutOfRange
    | some i =>
      match regRead .rxdata s with
      | .error x => .refused x
      | .ok (v, t) => .next (storeByte i v t)
  | .settle => .fault .noTransitionRow

/-! The controller takes a command (R110). -/

/-- A format A command is taken: the command is no longer in flight, the environment has its effect (R111, R112). -/
def takeAddress (a : BitVec 7) (d : Dir) (s : State) : Host.Outcome State Fault Refusal :=
  match s.env.addressPhase a d with
  | .error x => .refused x
  | .ok e => .next ((s.setEnv e).setInFlight none)

/-- A format D command is taken (R113, R114). -/
def takeData (b : Byte) (stop : Bool) (s : State) : Host.Outcome State Fault Refusal :=
  match s.env.dataPhase b stop with
  | .error x => .refused x
  | .ok e => .next ((s.setEnv e).setInFlight none)

/-! The decode accessors (R150 to R155). -/

/-- The one read of `buf`: "`buf` may be read only when `done = 1` and `err = OK`", and otherwise every byte is a free value,
whatever is physically stored (R19, D14, U1, U2; log entries 3, 26). -/
def State.bufByte (s : State) (i : Nat) : Byte :=
  if s.done = true ∧ s.err = .ok then (s.buf.get? i).getD (Config.freeBufByte s.draws i)
  else Config.freeBufByte s.draws i

/-- `n` bytes of `buf` from `off`, in index order. -/
def State.bufBytes (s : State) (off n : Nat) : List Byte := (List.range n).map fun i => s.bufByte (off + i)

/-- The checks common to both accessors, in their order: the stored error, then the format id (R151, R154). -/
def layoutCheck (s : State) : Kind :=
  if s.err ≠ .ok then s.err else if s.bufByte 0 ≠ Config.formatId0 then .unrecognizedFormat else .ok

/-- MAC_ADDRESS (R152): the result kind and, on ok, the six bytes. -/
def macAddress (s : State) : Kind × List Byte :=
  if layoutCheck s = .ok then (.ok, s.bufBytes Config.macOff Config.macLen) else (layoutCheck s, [])

/-- ASSET_TAG (R153): the result kind and the caller's buffer afterwards. `cap` alone decides whether the buffer is large
enough, and the 11 bytes are written at indices 0 to 10, whatever bytes of it `out` gives (log entry 23). -/
def assetTag (out : List Byte) (cap : Nat) (s : State) : Kind × List Byte :=
  if layoutCheck s ≠ .ok then (layoutCheck s, out)
  else if cap < Config.tagLen + 1 then (.insufficientCapacity, out)
  else (.ok, s.bufBytes Config.tagOff Config.tagLen ++ 0#8 :: out.drop (Config.tagLen + 1))

/-! The host's moves (R126, R170, R185). -/

/-- The reset event (R43, R185, R186): the three gating registers get their values, the unspecified ones free values; a
reset in a LOAD leaves an environment of which nothing is known, E0 (log entry 15). -/
def resetEvent (s : State) : State :=
  { s with
    phase := .idle
    sub := .poll
    done := false
    err := if Config.freeErrSet s.draws then .timeout else .ok
    remaining := BitVec.ofNat 9 (Config.freeRemaining s.draws).val
    pollCnt := BitVec.ofNat 17 (Config.freePollCnt s.draws).val
    buf := []
    draws := s.draws + 1
    env := if s.phase.busy then .oracle [] else s.env }

/-- What the host's turn comes to. -/
inductive HostTurn where
  /-- The host made no move; the machine's own step follows in this state. -/
  | pass (s : State)
  /-- The host moved; this was the step. -/
  | took (s : State)
  /-- The move is outside the contract (R170). -/
  | stop (x : Refusal)
  deriving DecidableEq, Repr

/-- One answer given to the host. -/
def State.reply (a : Reply) (s : State) : State := { s with replies := s.replies ++ [a] }

/-- The host makes the move `m` in a state from which the move has been taken off the list (R68, R150, R170). One move a
step: a quiet step of a block that waits for the host is a step in which nothing happens (R128, R143; log entry 13).
DESIGN CHOICE: an attach while a window is mapped and a detach while none is are refused (log entry 14), and the environment
and the register cells outlast a detach and a new attach (log entry 30). -/
def hostDoes (m : HostMove) (s : State) : HostTurn :=
  match m with
  | .quiet => if s.phase.busy then .pass s else .took s
  | .loadStart => if s.phase.busy then .stop .loadStartDuringLoad else .pass { s with host := .loadStart :: s.host }
  | .attach base =>
    if s.window ≠ none then .stop .alreadyAttached
    else if base % 4 ≠ 0 then .stop .misalignedBase
    else .took { s with window := some base }
  | .detach =>
    if s.window = none then .stop .notAttached
    else if s.phase.busy then .stop .detachDuringLoad
    else .took { s with window := none }
  | .readDone => .took (s.reply (.doneFlag s.done))
  | .readErr => if s.done then .took (s.reply (.errCode s.err)) else .stop .readBeforeDone
  | .macAddress =>
    if s.done then .took (s.reply (.mac (macAddress s).1 (macAddress s).2)) else .stop .readBeforeDone
  | .assetTag out cap =>
    if s.done then .took (s.reply (.tag (assetTag out cap s).1 (assetTag out cap s).2)) else .stop .readBeforeDone
  | .reset => .took (resetEvent s)

/-- The host's turn: none while a command is in flight, else the first move of its list (log entry 13). A `load_start`
that the phase accepts stays on the list for the phase to take (R128, R143). -/
def hostTurn (s : State) : HostTurn :=
  match s.inFlight, s.host with
  | some _, _ => .pass s
  | none, [] => .pass s
  | none, m :: rest => hostDoes m { s with host := rest }

/-! Fetching. -/

/-- What decoding the command in flight knows beside the word (R74, R76; log entry 8). -/
def State.context (s : State) : Context := ⟨siteOf s.phase s.remaining, s.env.held⟩

/-- The next instruction: the command in flight if there is one, else the phase (R21, R42, R110). -/
def fetch (s : State) : Except Reserved Instr :=
  match s.inFlight with
  | some w => decode s.cfg s.context (.command w)
  | none => decode s.cfg s.context (.phase s.phase.code)

/-- The state with the phase and `remaining` at which a site emits its word. -/
def State.atSite (x : Option Site) (s : State) : State :=
  match x with
  | some .selW => { s with phase := .selW }
  | some .offset => { s with phase := .offset }
  | some .selR => { s with phase := .selR }
  | some .cont => { s with phase := .req, remaining := 2#9 }
  | some .last => { s with phase := .req, remaining := 1#9 }
  | none => s

/-- Places a phase code or a command word where `fetch` finds it, with the host silent (log entry 24). -/
def State.place (s : State) (nbits w : Nat) : State :=
  if nbits ≤ 8 then
    { s with phase := (Phase.ofNat? w).getD s.phase, inFlight := none, host := [] }
  else
    let v : Word := BitVec.ofNat 32 w
    { s.atSite (tableSite s.cfg v) with inFlight := some v, host := [] }

end Sys2Proof.Machine
end

