-- ==== Sys2Proof/Machine/InitPhases.lean ====
section
/-! DEFINITION. The phases that wait for the host and the phases of INIT with the defensive acknowledge
(R128 to R136, R142, R143): one register write or delay each, then the next phase. -/

namespace Sys2Proof.Machine

/-- Phase `IDLE` (R128). -/
def execIdle (s : State) : Host.Outcome State Fault Refusal := awaitStart s

/-- Phase `INIT_DISABLE` (R129). -/
def execInitDisable (s : State) : Host.Outcome State Fault Refusal :=
  thenDo (ctrlDisable s) fun t => .next (t.goto .initClklow .poll)

/-- Phase `INIT_CLKLOW` (R130). -/
def execInitClklow (s : State) : Host.Outcome State Fault Refusal :=
  thenDo (setClklow s) fun t => .next (t.goto .initClkhigh .poll)

/-- Phase `INIT_CLKHIGH` (R131). -/
def execInitClkhigh (s : State) : Host.Outcome State Fault Refusal :=
  thenDo (setClkhigh s) fun t => .next (t.goto .initHold .poll)

/-- Phase `INIT_HOLD` (R132). -/
def execInitHold (s : State) : Host.Outcome State Fault Refusal :=
  thenDo (setHold s) fun t => .next (t.goto .initAck .poll)

/-- Phase `INIT_ACK` (R133). -/
def execInitAck (s : State) : Host.Outcome State Fault Refusal :=
  thenDo (ackStatus s) fun t => .next (t.goto .initEnable .poll)

/-- Phase `INIT_ENABLE` (R134). -/
def execInitEnable (s : State) : Host.Outcome State Fault Refusal :=
  thenDo (ctrlEnable s) fun t => .next (t.goto .initSettle .poll)

/-- Phase `INIT_SETTLE` (R135). -/
def execInitSettle (s : State) : Host.Outcome State Fault Refusal :=
  .next ((delay Config.settleUs s).goto .preAck .poll)

/-- Phase `PRE_ACK` (R136). -/
def execPreAck (s : State) : Host.Outcome State Fault Refusal :=
  thenDo (ackStatus s) fun t => .next (t.enterPoll .selW)

/-- Phase `FIN_DISABLE` (R142); after a failure all of `buf` is invalid (R164). -/
def execFinDisable (s : State) : Host.Outcome State Fault Refusal :=
  thenDo (ctrlDisable s) fun t => .next (t.endLoad.goto .done .poll)

/-- Phase `DONE` (R143). -/
def execDone (s : State) : Host.Outcome State Fault Refusal := awaitStart s

end Sys2Proof.Machine
end

