-- ==== Sys2Proof/Machine/TransferPhases.lean ====
section
/-! DEFINITION. The five polling phases (R137 to R141). -/

namespace Sys2Proof.Machine

/-- Phase `SEL_W`: `SEND(W_SEL_W)` (R137). -/
def execSelW (s : State) : Host.Outcome State Fault Refusal :=
  sendPhase .selW (siteWord s.cfg .selW) (fun t => t.enterPoll .offset) s

/-- Phase `OFFSET`: `SEND(W_OFFSET)` (R138). -/
def execOffset (s : State) : Host.Outcome State Fault Refusal :=
  sendPhase .offset (siteWord s.cfg .offset) (fun t => t.enterPoll .selR) s

/-- Phase `SEL_R`: `SEND(W_SEL_R)`, then `remaining <- EEPROM_SIZE` (R139). -/
def execSelR (s : State) : Host.Outcome State Fault Refusal :=
  sendPhase .selR (siteWord s.cfg .selR)
    (fun t => (t.setRemaining (BitVec.ofNat 9 Config.eepromSize)).enterPoll .req) s

/-- Phase `REQ`: `SEND` of `W_LAST` if `remaining = 1`, else of `W_CONT` (R140). -/
def execReq (s : State) : Host.Outcome State Fault Refusal :=
  sendPhase .req (siteWord s.cfg (reqSite s.remaining)) (fun t => t.enterPoll .rcv) s

/-- Phase `RCV`: RECV into `buf` (R141). -/
def execRcv (s : State) : Host.Outcome State Fault Refusal := recvPhase s

end Sys2Proof.Machine
end

