-- ==== Sys2Proof/Machine/Commands.lean ====
section
/-! DEFINITION. The four general command forms, as the controller runs them (R110 to R114). What the block does to
bring a word there, `SEND(w)`, is in the phases that emit it. -/

namespace Sys2Proof.Machine

/-- `START a, d` (R111). -/
def execStart (a : BitVec 7) (d : Dir) (s : State) : Host.Outcome State Fault Refusal := takeAddress a d s

/-- `RSTART a, d` (R112): effect as R111; the bus state is replaced, `ptr` kept. -/
def execRstart (a : BitVec 7) (d : Dir) (s : State) : Host.Outcome State Fault Refusal := takeAddress a d s

/-- `DATA b` (R113). -/
def execData (b : Byte) (s : State) : Host.Outcome State Fault Refusal := takeData b false s

/-- `DATA.STOP b` (R114). -/
def execDataStop (b : Byte) (s : State) : Host.Outcome State Fault Refusal := takeData b true s

end Sys2Proof.Machine
end

