-- ==== Sys2Proof/Machine/Words.lean ====
section
/-! DEFINITION. The five words of the sequencer, as the controller runs them (R115 to R119): each is the general form
it stands for with its fixed operands (R82). -/

namespace Sys2Proof.Machine

/-- `W_SEL_W` = `START 0x51, W` (R115). -/
def execWSelW (s : State) : Host.Outcome State Fault Refusal := takeAddress Config.eepromAddr .w s

/-- `W_OFFSET` = `DATA 0x00`, the EEPROM's offset (R116). -/
def execWOffset (s : State) : Host.Outcome State Fault Refusal := takeData Config.eepromOffset false s

/-- `W_SEL_R` = `RSTART 0x51, R` (R117). -/
def execWSelR (s : State) : Host.Outcome State Fault Refusal := takeAddress Config.eepromAddr .r s

/-- `W_CONT` = `DATA 0x00`, the request of the next byte (R118). -/
def execWCont (s : State) : Host.Outcome State Fault Refusal := takeData 0#8 false s

/-- `W_LAST` = `DATA.STOP 0x00`, the last request (R119). -/
def execWLast (s : State) : Host.Outcome State Fault Refusal := takeData 0#8 true s

end Sys2Proof.Machine
end

