-- ==== Sys2Proof/Machine/Dispatch.lean ====
section
/-! DEFINITION. One arm per constructor of Instr, each a direct call of its meaning. -/

namespace Sys2Proof.Machine

def exec (i : Instr) (s : State) : Host.Outcome State Fault Refusal :=
  match i with
  | .start a d => Sys2Proof.Machine.execStart a d s
  | .rstart a d => Sys2Proof.Machine.execRstart a d s
  | .data b => Sys2Proof.Machine.execData b s
  | .dataStop b => Sys2Proof.Machine.execDataStop b s
  | .wSelW => Sys2Proof.Machine.execWSelW s
  | .wOffset => Sys2Proof.Machine.execWOffset s
  | .wSelR => Sys2Proof.Machine.execWSelR s
  | .wCont => Sys2Proof.Machine.execWCont s
  | .wLast => Sys2Proof.Machine.execWLast s
  | .idle => Sys2Proof.Machine.execIdle s
  | .initDisable => Sys2Proof.Machine.execInitDisable s
  | .initClklow => Sys2Proof.Machine.execInitClklow s
  | .initClkhigh => Sys2Proof.Machine.execInitClkhigh s
  | .initHold => Sys2Proof.Machine.execInitHold s
  | .initAck => Sys2Proof.Machine.execInitAck s
  | .initEnable => Sys2Proof.Machine.execInitEnable s
  | .initSettle => Sys2Proof.Machine.execInitSettle s
  | .preAck => Sys2Proof.Machine.execPreAck s
  | .selW => Sys2Proof.Machine.execSelW s
  | .offset => Sys2Proof.Machine.execOffset s
  | .selR => Sys2Proof.Machine.execSelR s
  | .req => Sys2Proof.Machine.execReq s
  | .rcv => Sys2Proof.Machine.execRcv s
  | .finDisable => Sys2Proof.Machine.execFinDisable s
  | .done => Sys2Proof.Machine.execDone s

end Sys2Proof.Machine
end

