-- ==== Sys2Proof/Machine/Step.lean ====
section
/-! DEFINITION. One step: the controller if a command is in flight, else the host's move if there is one, else the
block. -/

namespace Sys2Proof.Machine

/-- One step of the machine (R60, R127; log entries 7, 13). -/
def step (s : State) : Host.Outcome State Fault Refusal :=
  match hostTurn s with
  | .stop x => .refused x
  | .took t => .next t
  | .pass t =>
    match fetch t with
    | .ok i => exec i t
    | .error x => .refused (.reservedCommand x)

/-- An outcome without the configuration. -/
def blockOutcome (o : Host.Outcome State Fault Refusal) : Host.Outcome Block Fault Refusal :=
  match o with
  | .next s => .next s.toBlock
  | .fault x => .fault x
  | .refused x => .refused x

/-- The step relation as R23 has it: the configuration is its parameter and no field of the state it steps (log entry 1). -/
def stepUnder (c : Config) (b : Block) : Host.Outcome Block Fault Refusal := blockOutcome (step (b.under c))

/-- The machine of one configuration and one window base: its state holds no configuration (R7, R23; log entry 1). -/
def coreUnder (c : Config) (base : Nat) : Host.Core where
  State := Block
  Fault := Fault
  Refusal := Refusal
  step := stepUnder c
  reset := Block.reset base

/-- The state with a table word placed where the next step fetches it (log entry 24). -/
def State.withFetchWord (s : State) (nbits w : Nat) : State := s.place nbits w

end Sys2Proof.Machine
end

