-- ==== Sys2Proof/Machine/Procedure.lean ====
section
/-! DEFINITION. The operations as the procedures of R91, R98, R99, R100 and R125, to be held against the phase machine
(R145). They use the same register accesses and leave `phase` and `sub` alone. -/

namespace Sys2Proof.Machine

/-- How an engine operation ends (R11): ok, with `Timeout`, or with a stop of the environment. -/
inductive ProcResult where
  | ok (s : State)
  | timeout (s : State)
  | stop (x : Refusal)
  | broken (x : Fault)
  deriving DecidableEq, Repr

/-- Continues after ok. -/
def ProcResult.andThen (o : ProcResult) (f : State → ProcResult) : ProcResult :=
  match o with
  | .ok s => f s
  | .timeout s => .timeout s
  | .stop x => .stop x
  | .broken x => .broken x

/-- An outcome of a register write or of the controller as a result. -/
def ofOutcome (o : Host.Outcome State Fault Refusal) : ProcResult :=
  match o with
  | .next s => .ok s
  | .fault x => .broken x
  | .refused x => .stop x

/-- The loop of POLL (R91) from a count already set; the first argument bounds the reads. -/
def pollLoop (mask : Word) : Nat → State → ProcResult
  | 0, s => .timeout s
  | n + 1, s =>
    match regRead s.cfg.offPoll s with
    | .error x => .stop x
    | .ok (v, t) =>
      if ready mask v then .ok t
      else
        let u := (delay Config.pollStepUs t).setPollCnt (t.pollCnt + 1#17)
        if pollExhausted u.pollCnt then .timeout u else pollLoop mask n u

/-- POLL (R91). -/
def pollProc (mask : Word) (s : State) : ProcResult := pollLoop mask Config.pollMax (s.setPollCnt 0#17)

/-- The controller takes the command just written, read in its general form (R74). -/
def controllerTakes (w : Word) (s : State) : ProcResult :=
  match decodeForm s.cfg s.env.held w with
  | .ok i => ofOutcome (exec i s)
  | .error x => .stop (.reservedCommand x)

/-- SEND (R99). -/
def sendProc (w : Word) (s : State) : ProcResult :=
  (pollProc s.cfg.txReady s).andThen fun t =>
    (ofOutcome (regWrite .cmd w t)).andThen fun u =>
      (controllerTakes w u).andThen fun v => .ok (delay Config.writeSettleUs v)

/-- RECV, and the store of its byte at index `i` (R100, R125). -/
def recvProc (i : Nat) (s : State) : ProcResult :=
  (pollProc s.cfg.rxReady s).andThen fun t =>
    match regRead .rxdata t with
    | .error x => .stop x
    | .ok (v, u) => .ok (u.setBuf i (lowByte v))

/-- The loop of R125 step 5; the first argument bounds the passes. -/
def byteLoop : Nat → State → ProcResult
  | 0, s => .ok s
  | n + 1, s =>
    if s.remaining = 0#9 then .ok s
    else
      match bufIndex s.remaining with
      | none => .broken .bufIndexOutOfRange
      | some i =>
        (sendProc (siteWord s.cfg (reqSite s.remaining)) s).andThen fun t =>
          (recvProc i t).andThen fun u => byteLoop n (u.setRemaining (u.remaining - 1#9))

/-- INIT (R98). -/
def initProc (s : State) : ProcResult :=
  (ofOutcome (ctrlDisable s)).andThen fun a =>
    (ofOutcome (setClklow a)).andThen fun b =>
      (ofOutcome (setClkhigh b)).andThen fun c =>
        (ofOutcome (setHold c)).andThen fun d =>
          (ofOutcome (ackStatus d)).andThen fun e =>
            (ofOutcome (ctrlEnable e)).andThen fun f => .ok (delay Config.settleUs f)

/-- Steps 2 to 5 of R125, the part a `Timeout` aborts. -/
def attemptProc (s : State) : ProcResult :=
  (sendProc (siteWord s.cfg .selW) s).andThen fun a =>
    (sendProc (siteWord a.cfg .offset) a).andThen fun b =>
      (sendProc (siteWord b.cfg .selR) b).andThen fun c =>
        byteLoop Config.eepromSize (c.setRemaining (BitVec.ofNat 9 Config.eepromSize))

/-- Step 6 of R125, on success and on failure. -/
def finishProc (s : State) : ProcResult :=
  (ofOutcome (ctrlDisable s)).andThen fun t => .ok t.endLoad

/-- LOAD (R125). -/
def loadProc (s : State) : ProcResult :=
  (initProc s.flagsAtStart.forgetBuf).andThen fun a =>
    (ofOutcome (ackStatus a)).andThen fun b =>
      match attemptProc b with
      | .ok t => finishProc t
      | .timeout t => finishProc t.flagTimeout
      | .stop x => .stop x
      | .broken x => .broken x

end Sys2Proof.Machine
end

