-- ==== Sys2Proof/Safety.lean ====
section
/-! DEFINITION. What the statements call a good state: the invariant of the block, the hazard rules, the invariant of a
LOAD under E2; and how a trace is counted. -/

namespace Sys2Proof.Machine

/-- The five polling phases (R13). -/
def pollPhases : List Phase := [.selW, .offset, .selR, .req, .rcv]

/-- The four phases that perform a SEND (R99). -/
def sendPhases : List Phase := [.selW, .offset, .selR, .req]

/-- The ready bit a polling phase awaits (R91). -/
def awaited (c : Config) (p : Phase) : Word := if p = .rcv then c.rxReady else c.txReady

/-- The phases in which bytes of the running or of the last LOAD are stored (R141). -/
def loadedPhases : List Phase := [.req, .rcv, .finDisable, .done]

/-- Every index below `n` holds a stored byte. -/
def filledBelow (n : Nat) (m : Mem) : Prop := ∀ i, i < n → (m.get? i).isSome = true

/-- The invariant of the block, in every environment. -/
structure Inv (s : State) : Prop where
  /-- The configuration meets the constraints of R7. -/
  cfgWf : s.cfg.wf = true
  /-- `buf` is canonical and inside 0 to 255 (R18). -/
  bufWf : s.buf.wf = true
  /-- "`done` is 1 exactly when `phase = DONE`" (R17). -/
  doneIff : s.done = true ↔ s.phase = .done
  /-- `err` has two values (R16). -/
  errStored : s.err = .ok ∨ s.err = .timeout
  /-- `err` is `OK` from `load_start` until a poll fails (R127). -/
  errPending : s.phase.busy = true → s.phase ≠ .finDisable → s.err = .ok
  /-- The range of `remaining` (R12). -/
  remainingLe : s.remaining.toNat ≤ 256
  /-- "While the block is in `REQ` or `RCV` it satisfies `1 <= remaining <= 256`" (R14). -/
  remainingPos : s.phase = .req ∨ s.phase = .rcv → 1 ≤ s.remaining.toNat
  /-- The range of `poll_cnt` (R12). -/
  pollLe : s.pollCnt.toNat ≤ 100000
  /-- In a polling phase the bound has not been reached (R91). -/
  pollLt : s.phase ∈ pollPhases → s.pollCnt.toNat < 100000
  /-- Outside the polling phases `sub` is `POLL` (R13). -/
  subPoll : s.phase ∉ pollPhases → s.sub = .poll
  /-- `SETTLE` is never used in `RCV` (R13). -/
  subRcv : s.phase = .rcv → s.sub ≠ .settle
  /-- The window is valid while a LOAD runs (R65, R68). -/
  windowHeld : s.phase.busy = true → s.window ≠ none
  /-- "`BASE` is a multiple of 4" (R7, R56). -/
  windowAligned : ∀ b, s.window = some b → b % 4 = 0
  /-- A command is in flight only right after its phase has written it (R42 (a), R120). -/
  flight : ∀ w, s.inFlight = some w →
    s.sub = .settle ∧ ∃ x, siteOf s.phase s.remaining = some x ∧ w = siteWord s.cfg x
  /-- In the loop the bytes of the earlier passes are stored (R141). -/
  filledLoop : s.phase = .req ∨ s.phase = .rcv → filledBelow (256 - s.remaining.toNat) s.buf
  /-- After a success all 256 bytes are stored (R43). -/
  filledEnd : s.phase = .finDisable ∨ s.phase = .done → s.err = .ok → filledBelow 256 s.buf
  /-- A LOAD that succeeded has counted `remaining` down to 0 (R45). -/
  remainingEnd : s.phase = .finDisable ∨ s.phase = .done → s.err = .ok → s.remaining = 0#9
  /-- A LOAD that failed leaves the count of its last poll, the bound (R45, R91). -/
  pollFailed : s.phase = .finDisable ∨ s.phase = .done → s.err ≠ .ok → s.pollCnt = 100000#17
  /-- After a LOAD the controller has been written the disabling value (R45). -/
  controlEnd : s.phase = .done → s.regs.ctrl = 0#32
  /-- Before the loop of a LOAD no byte is known: while `done = 0` each holds any value (R19, R43). -/
  unknownBefore : s.phase ∉ loadedPhases → s.buf = []
  /-- In the loop the bytes of the coming passes are not known (R18, R19). -/
  unknownAhead : s.phase = .req ∨ s.phase = .rcv → ∀ i, 256 - s.remaining.toNat ≤ i → s.buf.get? i = none
  /-- After a failed LOAD no byte is known (R19, R164). -/
  unknownFailed : s.phase = .done → s.err ≠ .ok → s.buf = []

/-- The value last written at an offset in a trace. -/
def lastWrite (off : Nat) (tr : List Event) : Option Word :=
  (tr.filterMap fun e =>
    match e with
    | .w o v => if o = off then some v else none
    | .r _ _ => none
    | .d _ => none).getLast?

/-- The phases between the disabling and the enabling write of INIT (R98). -/
def disabledPhases : List Phase := [.initClklow, .initClkhigh, .initHold, .initAck, .initEnable]

/-- Where a settle delay cannot follow because the block has been reset since: no access yet (R185). -/
def restPhases : List Phase := [.idle, .initDisable]

/-- The hazard rules as facts about the trace at the point where the next event is made. -/
structure HazardInv (s : State) : Prop where
  /-- Before a command write the last event is a poll read that showed `TX_READY` (R192). -/
  sendReady : s.phase ∈ sendPhases → s.sub = .xfer →
    ∃ v, s.trace.getLast? = some (.r (s.cfg.off s.cfg.offPoll) v) ∧ ready s.cfg.txReady v = true
  /-- Before a read of received-data the last event is a poll read that showed `RX_READY` (R193). -/
  recvReady : s.phase = .rcv → s.sub = .xfer →
    ∃ v, s.trace.getLast? = some (.r (s.cfg.off s.cfg.offPoll) v) ∧ ready s.cfg.rxReady v = true
  /-- After a command write the block is at its write-settle delay, unless it has been reset since (R190). -/
  writeThenSettle : ∀ v, s.trace.getLast? = some (.w s.cfg.offCmd v) →
    (s.phase ∈ sendPhases ∧ s.sub = .settle) ∨ s.phase ∈ restPhases
  /-- After the enabling write the block is at its enable-settle delay, unless it has been reset since (R191). -/
  enableThenSettle : s.trace.getLast? = some (.w s.cfg.offCtrl s.cfg.ctrlEnable) →
    s.phase = .initSettle ∨ s.phase ∈ restPhases
  /-- A write-settle delay stands right after a command write (R190). -/
  settleAfterWrite : s.phase ∈ sendPhases → s.sub = .settle → ∃ v, s.trace.getLast? = some (.w s.cfg.offCmd v)
  /-- The enable-settle delay stands right after the enabling write (R191). -/
  settleAfterEnable : s.phase = .initSettle → s.trace.getLast? = some (.w s.cfg.offCtrl s.cfg.ctrlEnable)
  /-- Timing registers and the acknowledge are written while the last value written to control is the disabling one
  (R195). -/
  timingDisabled : s.phase ∈ disabledPhases → lastWrite s.cfg.offCtrl s.trace = some 0#32

/-- The phase's command has been written and the controller has taken it. -/
def taken (s : State) : Prop := s.sub = .settle ∧ s.inFlight = none

/-- E2 holds the byte of the current pass for the block to fetch (R113, R118, R119). -/
def byteWaiting (s : State) (e : Device) : Prop :=
  e.rxValid = true ∧ some e.rxByte = e.rom[256 - s.remaining.toNat]? ∧
    e.ptr = BitVec.ofNat 8 (257 - s.remaining.toNat) ∧ (s.remaining ≠ 1#9 → e.bus = .read)

/-- What holds of E2 while the block runs a LOAD against a device that answers (R63, R148). -/
structure DeviceInv (s : State) (e : Device) : Prop where
  /-- A device answers address 0x51. -/
  present : e.present = true
  /-- Polls do not read received-data (log entry 19). -/
  pollReg : s.cfg.offPoll ≠ .rxdata
  /-- The controller is disabled while the timing registers are written (R195). -/
  disabled : s.phase ∈ disabledPhases → e.cEn = false
  /-- It is enabled from the enabling write to the end of the loop. -/
  enabled : s.phase ∈ [Phase.initSettle, Phase.preAck] ++ pollPhases → e.cEn = true
  /-- `SEL_W` selects the device in write direction (R115). -/
  afterSelW : s.phase = .selW → taken s → e.bus = .write
  /-- `OFFSET` is written in write direction and sets the offset to 0 (R116). -/
  atOffset : s.phase = .offset → e.bus = .write ∧ (taken s → e.ptr = 0#8)
  /-- `SEL_R` keeps the offset and turns to read direction (R117). -/
  atSelR : s.phase = .selR → e.ptr = 0#8 ∧ (taken s → e.bus = .read)
  /-- A request finds the bus in read direction at the offset of its pass, and leaves its byte waiting (R118, R119). -/
  atReq : s.phase = .req →
    (¬ taken s → e.bus = .read ∧ e.ptr = BitVec.ofNat 8 (256 - s.remaining.toNat)) ∧ (taken s → byteWaiting s e)
  /-- `RCV` finds its byte waiting. -/
  atRcv : s.phase = .rcv → byteWaiting s e
  /-- The bytes stored so far are the EEPROM's. -/
  stored : s.phase = .req ∨ s.phase = .rcv → ∀ i, i < 256 - s.remaining.toNat → s.buf.get? i = e.rom[i]?
  /-- After a success all bytes are the EEPROM's, and its offset has wrapped to 0. -/
  storedAll : s.phase = .finDisable ∨ s.phase = .done → s.err = .ok →
    e.ptr = 0#8 ∧ ∀ i, i < 256 → s.buf.get? i = e.rom[i]?
  /-- The timing registers hold the programmed counts once they are written (R95 to R97). -/
  clockLow : 3 ≤ s.phase.code.toNat → e.tLow = 500#32
  clockHigh : 4 ≤ s.phase.code.toNat → e.tHigh = 500#32
  hold : 5 ≤ s.phase.code.toNat → e.tHold = 30#32
  /-- After a LOAD the controller is disabled and the bus idle. -/
  final : s.phase = .done → e.cEn = false ∧ e.bus = .idle ∧ e.rxValid = false

/-- The number of writes in a trace. -/
def writes (tr : List Event) : Nat := tr.countP fun e => match e with | .w _ _ => true | _ => false

/-- The number of reads in a trace. -/
def reads (tr : List Event) : Nat := tr.countP fun e => match e with | .r _ _ => true | _ => false

/-- The number of delays in a trace. -/
def delays (tr : List Event) : Nat := tr.countP fun e => match e with | .d _ => true | _ => false

/-- The number of writes at an offset. -/
def writesAt (off : Nat) (tr : List Event) : Nat :=
  tr.countP fun e => match e with | .w o _ => o == off | _ => false

/-- The number of reads at an offset. -/
def readsAt (off : Nat) (tr : List Event) : Nat :=
  tr.countP fun e => match e with | .r o _ => o == off | _ => false

/-- `n` steps of the machine, stopping at the first fault or refusal. -/
def runSteps : Nat → State → Host.Outcome State Fault Refusal
  | 0, s => .next s
  | n + 1, s => thenDo (step s) (runSteps n)

/-- The number of command writes before poll `k` begins (R147). -/
def commandsBefore (k : Nat) : Nat :=
  if k ≤ 3 then k - 1 else if k % 2 = 0 then (k - 2) / 2 + 2 else (k - 3) / 2 + 3

/-- The number of bytes stored before poll `k` begins (R147). -/
def bytesBefore (k : Nat) : Nat := if k ≤ 3 then 0 else if k % 2 = 0 then (k - 2) / 2 - 1 else (k - 3) / 2 - 1

/-- The number of events of a LOAD before poll `k` begins, every earlier poll being ready at once (95_test_vectors.md
V5). -/
def eventsBefore (k : Nat) : Nat :=
  if k ≤ 3 then 8 + 3 * (k - 1) else if k % 2 = 0 then 17 + 5 * ((k - 2) / 2 - 1) else 20 + 5 * ((k - 3) / 2 - 1)

/-- The block is about to begin INIT, alone: no command in flight, the host silent. -/
def atLoadStart (s : State) : Prop := s.phase = .initDisable ∧ s.inFlight = none ∧ s.host = []

end Sys2Proof.Machine
end

