-- ==== Sys2Proof/Certificates/Slice0/Obligations.lean ====
section
/-! DEFINITION. The statements about the machine, in the order of OBLIGATIONS.json. -/

open Sys2Proof Sys2Proof.Machine

/-! Encoding. -/

/-- Every instruction is read back from its code in its context, under every admissible configuration (R71 to R73, R76,
R13). The context (the emitting site, whether the bus is held) is the model's (log entry 8), and so is the reading of a word
where `CMD_START` and `CMD_RSTART` overlap without being equal (log entry 10). -/
def Obligations.DecodeOfEncodeIsTheInstruction : Prop :=
  ∀ (c : Config) (i : Instr), c.wf = true → decode c i.context (encode c i) = .ok i

/-- A command word is read exactly when it is of format A or D; every other word is reserved (R71, R72, R74, R75). -/
def Obligations.DecoderAcceptsExactlyTheFormats : Prop :=
  ∀ (c : Config) (held : Bool) (w : Word), c.wf = true →
    ((∃ i, decodeForm c held w = .ok i) ↔ commandWf c w = true)

/-- What a command word is read as has that word as its code, so no bit of the word is lost (R73, R74). -/
def Obligations.DecodedWordReencodes : Prop :=
  ∀ (c : Config) (held : Bool) (w : Word) (i : Instr), c.wf = true → decodeForm c held w = .ok i →
    encode c i = .command w

/-- Words of T7 and V1 are read as they say, under the default masks and one non-default mask. -/
def Obligations.SpecWordsDecode : Prop :=
  decode Config.std ⟨none, false⟩ (.command 0x000002A2#32) = .ok (.start 0x51#7 .w) ∧
  decode Config.std ⟨none, true⟩ (.command 0x000002A3#32) = .ok (.rstart 0x51#7 .r) ∧
  decode Config.std ⟨none, false⟩ (.command 0x000000A2#32) = .ok (.data 0xA2#8) ∧
  decode Config.std ⟨none, true⟩ (.command 0x000001FF#32) = .ok (.dataStop 0xFF#8) ∧
  decode Config.std ⟨some .selW, false⟩ (.command 0x000002A2#32) = .ok .wSelW ∧
  decode Config.std ⟨some .offset, true⟩ (.command 0x00000000#32) = .ok .wOffset ∧
  decode Config.std ⟨some .selR, true⟩ (.command 0x000002A3#32) = .ok .wSelR ∧
  decode Config.std ⟨some .cont, true⟩ (.command 0x00000000#32) = .ok .wCont ∧
  decode Config.std ⟨some .last, true⟩ (.command 0x00000100#32) = .ok .wLast ∧
  decode Config.std ⟨none, false⟩ (.command 0x00000300#32) = .error .stopInAddressPhase ∧
  decode Config.std ⟨none, false⟩ (.command 0x00000400#32) = .error .outsideFields ∧
  decode { Config.std with cmdRstart := 0x400#32 } ⟨none, true⟩ (.command 0x000004A3#32) = .ok (.rstart 0x51#7 .r) ∧
  decode Config.std ⟨none, false⟩ (.phase 12#4) = .ok .req

/-- The five words are the symbolic values of R76 (R115 to R119), and none is reserved (R120). -/
def Obligations.EmittedWordsAreTheFiveOfTheSpec : Prop :=
  ∀ c : Config, c.wf = true →
    siteWord c .selW = c.cmdStart ||| (0x51#32 <<< 1) ||| c.dirWrite.setWidth 32 ∧
    siteWord c .offset = 0#32 ∧
    siteWord c .selR = c.cmdRstart ||| (0x51#32 <<< 1) ||| c.dirRead.setWidth 32 ∧
    siteWord c .cont = 0#32 ∧
    siteWord c .last = c.cmdStop ∧
    ∀ x, commandWf c (siteWord c x) = true

/-! The step. -/

/-- A step runs the decoded instruction: the command in flight in its context, else, the host being silent or, while a LOAD
runs, quiet, the phase (R21, R60, R110). Outside a LOAD a quiet move is a step in which nothing else happens (log entry
13). -/
def Obligations.StepRunsDecodedInstruction : Prop :=
  ∀ s : State,
    (∀ w i, s.inFlight = some w → decode s.cfg ⟨siteOf s.phase s.remaining, s.env.held⟩ (.command w) = .ok i →
      step s = exec i s) ∧
    (∀ i, s.inFlight = none → s.host = [] →
      decode s.cfg ⟨siteOf s.phase s.remaining, s.env.held⟩ (.phase s.phase.code) = .ok i → step s = exec i s) ∧
    (∀ i rest, s.inFlight = none → s.host = .quiet :: rest → s.phase ≠ .idle → s.phase ≠ .done →
      decode s.cfg ⟨siteOf s.phase s.remaining, s.env.held⟩ (.phase s.phase.code) = .ok i →
      step s = exec i { s with host := rest }) ∧
    (∀ rest, s.inFlight = none → s.host = .quiet :: rest → s.phase = .idle ∨ s.phase = .done →
      step s = .next { s with host := rest })

/-- A step adds at most one event, at the end; a step of the block while a LOAD runs adds exactly one; the controller's
steps and the phases `IDLE` and `DONE` add none (R127). -/
def Obligations.OneEventPerBlockStep : Prop :=
  ∀ s t : State, step s = .next t →
    (t.trace = s.trace ∨ ∃ ev, t.trace = s.trace ++ [ev]) ∧
    (s.inFlight ≠ none → t.trace = s.trace) ∧
    (s.phase.busy = false → t.trace = s.trace) ∧
    (s.inFlight = none → s.host = [] → s.phase.busy = true → ∃ ev, t.trace = s.trace ++ [ev])

/-- Every write to command is one of the five words (R120). -/
def Obligations.OnlyTheFiveWordsAreWritten : Prop :=
  ∀ (s t : State) (v : Word), s.cfg.wf = true → step s = .next t → t.trace = s.trace ++ [.w s.cfg.offCmd v] →
    ∃ x : Site, v = siteWord s.cfg x

/-- No step touches interrupt-enable, transmit-fifo-level or receive-fifo-level, nor status, unless polls read it (R34,
R36 to R38). -/
def Obligations.UntouchedRegistersKeepTheirValue : Prop :=
  ∀ (s t : State) (r : Reg), step s = .next t → r ∈ [Reg.ien, Reg.status, Reg.txlvl, Reg.rxlvl] → r ≠ s.cfg.offPoll →
    t.regs.get r = s.regs.get r ∧ ∀ ev, t.trace = s.trace ++ [ev] → s.cfg.wf = true →
      (∀ v, ev ≠ .w (s.cfg.off r) v) ∧ (∀ v, ev ≠ .r (s.cfg.off r) v)

/-- No step writes the configuration, and the window is written only by the host's attach, of a multiple of 4, and detach;
the step of the state is the step that takes the configuration as its parameter (R23, R56; log entry 1). That an attach finds no window mapped
is the model's choice (log entry 14). -/
def Obligations.ConfigurationIsConstant : Prop :=
  (∀ s t : State, step s = .next t → t.cfg = s.cfg ∧
    (t.window = s.window ∨ (∃ base rest, s.host = .attach base :: rest ∧ s.window = none ∧ base % 4 = 0 ∧
        t.window = some base) ∨
      (∃ rest, s.host = .detach :: rest ∧ t.window = none))) ∧
  ∀ s : State, stepUnder s.cfg s.toBlock = blockOutcome (step s)

/-! Invariants. -/

/-- Under every admissible configuration the state after reset meets the invariant and the hazard rules; `IDLE`, `POLL`,
`done = 0` and that no byte of `buf` is known are R43, the other values are the model's (log entries 1, 2, 4, 5, 14). -/
def Obligations.ResetMeetsTheInvariants : Prop :=
  ∀ (c : Config) (base : Nat), c.wf = true →
    Inv (State.resetWith c base) ∧ HazardInv (State.resetWith c base) ∧ (State.resetWith c base).phase = .idle ∧
      (State.resetWith c base).sub = .poll ∧ (State.resetWith c base).done = false ∧
      ∀ i, (State.resetWith c base).buf.get? i = none

/-- Every step keeps the invariant of the block. -/
def Obligations.StepKeepsInv : Prop :=
  ∀ s t : State, Inv s → step s = .next t → Inv t

/-- Every step keeps the hazard rules: after a command write the block is at its settle delay and after the enabling write
at its own, each delay stands right after its write, and R192, R193 and R195 (R190 to R193, R195). -/
def Obligations.StepKeepsHazardRules : Prop :=
  ∀ s t : State, s.cfg.wf = true → HazardInv s → step s = .next t → HazardInv t

/-- Every step keeps `buf` in canonical form, inside 0 to 255 (R18, R144). -/
def Obligations.BufStaysCanonical : Prop :=
  ∀ s t : State, s.buf.wf = true → step s = .next t → t.buf.wf = true

/-- No state that meets the invariant faults, and none has a reserved word in flight (R120, R144). -/
def Obligations.GoodStatesNeverFault : Prop :=
  ∀ s : State, Inv s → (∀ x, step s ≠ .fault x) ∧ ∀ x, step s ≠ .refused (.reservedCommand x)

/-- With the host silent and under E0 a step always answers a next state (R52, R60). -/
def Obligations.GoodStatesGoOnUnderOracle : Prop :=
  ∀ (s : State) (tape : List Word), Inv s → s.host = [] → s.env = .oracle tape → ∃ t, step s = .next t

/-! The phases. -/

/-- The six register writes of INIT: value, register, event and next phase, and nothing else (R129 to R134). -/
def Obligations.InitRegisterWrites : Prop :=
  ∀ (s : State) (e : Env), s.window ≠ none →
    (s.env.absorb s.cfg .ctrl 0#32 = .ok e → exec .initDisable s = .next { s with
      phase := .initClklow, sub := .poll, env := e, regs := { s.regs with ctrl := 0#32 },
      trace := s.trace ++ [.w s.cfg.offCtrl 0#32] }) ∧
    (s.env.absorb s.cfg .scllow 500#32 = .ok e → exec .initClklow s = .next { s with
      phase := .initClkhigh, sub := .poll, env := e, regs := { s.regs with scllow := 500#32 },
      trace := s.trace ++ [.w s.cfg.offScllow 500#32] }) ∧
    (s.env.absorb s.cfg .sclhigh 500#32 = .ok e → exec .initClkhigh s = .next { s with
      phase := .initHold, sub := .poll, env := e, regs := { s.regs with sclhigh := 500#32 },
      trace := s.trace ++ [.w s.cfg.offSclhigh 500#32] }) ∧
    (s.env.absorb s.cfg .sdahold 30#32 = .ok e → exec .initHold s = .next { s with
      phase := .initAck, sub := .poll, env := e, regs := { s.regs with sdahold := 30#32 },
      trace := s.trace ++ [.w s.cfg.offSdahold 30#32] }) ∧
    (s.env.absorb s.cfg .isr 0xFFFFFFFF#32 = .ok e → exec .initAck s = .next { s with
      phase := .initEnable, sub := .poll, env := e, regs := { s.regs with isr := 0xFFFFFFFF#32 },
      trace := s.trace ++ [.w s.cfg.offIsr 0xFFFFFFFF#32] }) ∧
    (s.env.absorb s.cfg .ctrl s.cfg.ctrlEnable = .ok e → exec .initEnable s = .next { s with
      phase := .initSettle, sub := .poll, env := e, regs := { s.regs with ctrl := s.cfg.ctrlEnable },
      trace := s.trace ++ [.w s.cfg.offCtrl s.cfg.ctrlEnable] })

/-- `INIT_SETTLE` waits 10 µs and changes nothing else; `PRE_ACK` acknowledges again and enters the first poll (R135,
R136). -/
def Obligations.SettleAndDefensiveAcknowledge : Prop :=
  ∀ s : State,
    exec .initSettle s = .next { s with phase := .preAck, sub := .poll, trace := s.trace ++ [.d 10] } ∧
    ∀ e : Env, s.window ≠ none → s.env.absorb s.cfg .isr 0xFFFFFFFF#32 = .ok e → exec .preAck s = .next { s with
      phase := .selW, sub := .poll, pollCnt := 0#17, env := e, regs := { s.regs with isr := 0xFFFFFFFF#32 },
      trace := s.trace ++ [.w s.cfg.offIsr 0xFFFFFFFF#32] }

/-- `IDLE` and `DONE` make no access; on `load_start` they begin a LOAD, otherwise nothing changes (R126, R128, R143). No
byte of `buf` is known from then on (R19; log entry 26). -/
def Obligations.WaitingPhasesAwaitLoadStart : Prop :=
  ∀ (s : State) (i : Instr), i = .idle ∨ i = .done →
    (∀ rest, s.host = .loadStart :: rest → s.window ≠ none → exec i s = .next { s with
      host := rest, done := false, err := .ok, buf := [], phase := .initDisable, sub := .poll }) ∧
    ((∀ rest, s.host ≠ .loadStart :: rest) → exec i s = .next s)

/-- Sub-phase `POLL` of the four sending phases: one read of the poll register, and only `TX_READY` decides (R78, R91,
R99). -/
def Obligations.SendPhasesPollTheTransmitBit : Prop :=
  ∀ (s : State) (v : Word) (e : Env), s.window ≠ none → s.sub = .poll →
    s.env.answer s.cfg s.draws s.cfg.offPoll = .ok (v, e) →
    ∀ p ∈ [Phase.selW, Phase.offset, Phase.selR, Phase.req], exec p.instr s = .next { s with
      phase := p, sub := if v &&& s.cfg.txReady ≠ 0#32 then .xfer else .pollWait, env := e,
      regs := s.regs.set s.cfg.offPoll v, trace := s.trace ++ [.r (s.cfg.off s.cfg.offPoll) v], draws := s.draws + 1 }

/-- Sub-phase `POLL_WAIT` of the five polling phases: one delay, one count; at the bound the fail transition, which
changes `err`, `phase` and `sub` alone (R91, R142). -/
def Obligations.PollWaitCountsAndFails : Prop :=
  ∀ s : State, s.sub = .pollWait → ∀ p ∈ [Phase.selW, Phase.offset, Phase.selR, Phase.req, Phase.rcv],
    (s.pollCnt + 1#17 = 100000#17 → exec p.instr s = .next { s with
      phase := .finDisable, sub := .poll, err := .timeout, pollCnt := 100000#17, trace := s.trace ++ [.d 1] }) ∧
    (s.pollCnt + 1#17 ≠ 100000#17 → exec p.instr s = .next { s with
      phase := p, sub := .poll, pollCnt := s.pollCnt + 1#17, trace := s.trace ++ [.d 1] })

/-- Sub-phase `XFER` of the four sending phases: one command write, of the word the phase emits, which is then in flight
(R99, R115 to R119, R140). -/
def Obligations.SendPhasesWriteTheirWord : Prop :=
  ∀ (s : State) (e : Env) (p : Phase) (w : Word), s.window ≠ none → s.sub = .xfer →
    (p = .selW ∧ w = siteWord s.cfg .selW) ∨ (p = .offset ∧ w = siteWord s.cfg .offset) ∨
      (p = .selR ∧ w = siteWord s.cfg .selR) ∨ (p = .req ∧ s.remaining = 1#9 ∧ w = siteWord s.cfg .last) ∨
      (p = .req ∧ s.remaining ≠ 1#9 ∧ w = siteWord s.cfg .cont) →
    s.env.absorb s.cfg .cmd w = .ok e → exec p.instr s = .next { s with
      phase := p, sub := .settle, env := e, inFlight := some w, regs := { s.regs with cmd := w },
      trace := s.trace ++ [.w s.cfg.offCmd w] }

/-- Sub-phase `SETTLE` of the four sending phases: the write-settle delay, then the next phase begins its poll; `SEL_R`
loads `remaining` (R127, R137 to R140). -/
def Obligations.SendPhasesSettleAndMoveOn : Prop :=
  ∀ s : State, s.sub = .settle →
    exec .selW s = .next { s with
      phase := .offset, sub := .poll, pollCnt := 0#17, trace := s.trace ++ [.d 1] } ∧
    exec .offset s = .next { s with
      phase := .selR, sub := .poll, pollCnt := 0#17, trace := s.trace ++ [.d 1] } ∧
    exec .selR s = .next { s with
      phase := .req, sub := .poll, pollCnt := 0#17, remaining := 256#9, trace := s.trace ++ [.d 1] } ∧
    exec .req s = .next { s with
      phase := .rcv, sub := .poll, pollCnt := 0#17, trace := s.trace ++ [.d 1] }

/-- Phase `RCV`: the poll tests only `RX_READY`; the transfer reads received-data once, stores its low byte at index
`256 - remaining`, counts down, clears `poll_cnt`, and ends the loop at 0 (R100, R127, R141). -/
def Obligations.RcvStoresTheLowByte : Prop :=
  ∀ (s : State) (v : Word) (e : Env), s.window ≠ none →
    (s.sub = .poll → s.env.answer s.cfg s.draws s.cfg.offPoll = .ok (v, e) → exec .rcv s = .next { s with
      phase := .rcv, sub := if v &&& s.cfg.rxReady ≠ 0#32 then .xfer else .pollWait, env := e,
      regs := s.regs.set s.cfg.offPoll v, trace := s.trace ++ [.r (s.cfg.off s.cfg.offPoll) v],
      draws := s.draws + 1 }) ∧
    (s.sub = .xfer → 1 ≤ s.remaining.toNat → s.remaining.toNat ≤ 256 →
      s.env.answer s.cfg s.draws .rxdata = .ok (v, e) → exec .rcv s = .next { s with
      phase := if s.remaining = 1#9 then .finDisable else .req, sub := .poll,
      pollCnt := 0#17, remaining := s.remaining - 1#9, buf := Mem.set s.buf (256 - s.remaining.toNat) (v.setWidth 8),
      env := e, regs := { s.regs with rxdata := v }, trace := s.trace ++ [.r s.cfg.offRxdata v], draws := s.draws + 1 })

/-- A store into `buf` changes its own byte and no other (R18, R141). -/
def Obligations.RcvChangesOneByteOfBuf : Prop :=
  ∀ s t : State, s.sub = .xfer → exec .rcv s = .next t →
    ∃ v, t.regs.rxdata = v ∧ t.buf.get? (256 - s.remaining.toNat) = some (v.setWidth 8) ∧
      ∀ j, j ≠ 256 - s.remaining.toNat → t.buf.get? j = s.buf.get? j

/-- Of all steps only the transfer of `RCV` stores a byte of `buf` (R18); the start of a LOAD, the end of a failed LOAD and
the reset event leave no byte known (R19, R43; log entry 26); no other step changes `buf`, and of the instructions none. -/
def Obligations.OnlyRcvWritesBuf : Prop :=
  (∀ s t : State, step s = .next t → t.buf = s.buf ∨ (s.inFlight = none ∧ s.phase = .rcv ∧ s.sub = .xfer) ∨
    (t.buf = [] ∧ s.inFlight = none ∧ ((s.phase = .finDisable ∧ s.err ≠ .ok) ∨
      (∃ rest, s.host = .loadStart :: rest ∧ (s.phase = .idle ∨ s.phase = .done)) ∨
      ∃ rest, s.host = .reset :: rest))) ∧
  ∀ (i : Instr) (s t : State), exec i s = .next t → t.buf = s.buf ∨ (i = .rcv ∧ s.sub = .xfer) ∨
    (t.buf = [] ∧ ((i = .finDisable ∧ s.err ≠ .ok) ∨
      ((i = .idle ∨ i = .done) ∧ ∃ rest, s.host = .loadStart :: rest)))

/-- Phase `FIN_DISABLE`: the disabling write, `done <- 1`, `err` kept (R142); after a failure no byte of `buf` is known
(R19, R164; log entry 26). -/
def Obligations.FinDisableEndsTheLoad : Prop :=
  ∀ (s : State) (e : Env), s.window ≠ none → s.env.absorb s.cfg .ctrl 0#32 = .ok e →
    exec .finDisable s = .next { s with
      phase := .done, sub := .poll, done := true, buf := if s.err = .ok then s.buf else [], env := e, regs := { s.regs with ctrl := 0#32 },
      trace := s.trace ++ [.w s.cfg.offCtrl 0#32] }

/-- The two stops of phase `RCV`, in states that no run reaches: `SETTLE` has no row (R127), and a `remaining` outside 1
to 256 gives no index (R144); the model's faults (log entries 11, 12). -/
def Obligations.RcvFaultsOutsideItsRows : Prop :=
  ∀ s : State,
    (s.sub = .settle → exec .rcv s = .fault .noTransitionRow) ∧
    (s.sub = .xfer → s.remaining = 0#9 ∨ 256 < s.remaining.toNat → exec .rcv s = .fault .bufIndexOutOfRange)

/-! The commands. -/

/-- Under E0 and E1 a command is taken and has no other effect (R60, R62, R110). -/
def Obligations.CommandsHaveNoEffectWithoutDevice : Prop :=
  ∀ s : State, (∃ tape, s.env = .oracle tape) ∨ (∃ e, s.env = .double e) →
    (∀ a d, exec (.start a d) s = .next { s with inFlight := none }) ∧
    (∀ a d, exec (.rstart a d) s = .next { s with inFlight := none }) ∧
    (∀ b, exec (.data b) s = .next { s with inFlight := none }) ∧
    (∀ b, exec (.dataStop b) s = .next { s with inFlight := none }) ∧
    exec .wSelW s = .next { s with inFlight := none } ∧
    exec .wOffset s = .next { s with inFlight := none } ∧
    exec .wSelR s = .next { s with inFlight := none } ∧
    exec .wCont s = .next { s with inFlight := none } ∧
    exec .wLast s = .next { s with inFlight := none }

/-- Under E2, enabled: an address phase replaces the bus state and keeps the offset; START and REPEATED-START act alike
(R63, R111, R112, R115, R117). That address 0x51 selects no device while `present` is false is the variant of R148; that it
is a field of the device is the model's choice (log entry 18). -/
def Obligations.AddressPhasesSelectTheDevice : Prop :=
  ∀ (s : State) (e : Device), s.env = .device e → e.cEn = true →
    (∀ a, exec (.start a .w) s = .next { s with inFlight := none, env := .device { e with
      bus := if a = 0x51#7 ∧ e.present = true then .write else .nodev } }) ∧
    (∀ a, exec (.start a .r) s = .next { s with inFlight := none, env := .device { e with
      bus := if a = 0x51#7 ∧ e.present = true then .read else .nodev } }) ∧
    (∀ a d, exec (.rstart a d) s = exec (.start a d) s) ∧
    exec .wSelW s = exec (.start 0x51#7 .w) s ∧
    exec .wSelR s = exec (.rstart 0x51#7 .r) s

/-- Under E2, enabled: a data phase sets the offset in write direction, delivers the byte at the offset and advances it in
read direction, does nothing where no device answers; STOP then releases the bus (R63, R113, R114, R116, R118, R119). -/
def Obligations.DataPhasesMoveOneByte : Prop :=
  ∀ (s : State) (e : Device), s.env = .device e → e.cEn = true →
    (∀ b, e.bus = .write →
      exec (.data b) s = .next { s with inFlight := none, env := .device { e with ptr := b } } ∧
      exec (.dataStop b) s = .next { s with inFlight := none, env := .device { e with ptr := b, bus := .idle } }) ∧
    (∀ b x, e.bus = .read → e.rom[e.ptr.toNat]? = some x →
      exec (.data b) s = .next { s with inFlight := none, env := .device { e with
        rxByte := x, rxValid := true, ptr := e.ptr + 1#8 } } ∧
      exec (.dataStop b) s = .next { s with inFlight := none, env := .device { e with
        rxByte := x, rxValid := true, ptr := e.ptr + 1#8, bus := .idle } }) ∧
    (∀ b, e.bus = .nodev →
      exec (.data b) s = .next { s with inFlight := none } ∧
      exec (.dataStop b) s = .next { s with inFlight := none, env := .device { e with bus := .idle } }) ∧
    exec .wOffset s = exec (.data 0x00#8) s ∧
    exec .wCont s = exec (.data 0x00#8) s ∧
    exec .wLast s = exec (.dataStop 0x00#8) s

/-- E2 refuses every command while disabled and every data phase on an idle bus, and no other, the five emitted words among
them (R63). -/
def Obligations.DeviceRefusesCommands : Prop :=
  ∀ (s : State) (e : Device), s.env = .device e →
    (∀ a d x, exec (.start a d) s = .refused x ↔ e.cEn = false ∧ x = .deviceCommandWhileDisabled) ∧
    (∀ a d x, exec (.rstart a d) s = .refused x ↔ e.cEn = false ∧ x = .deviceCommandWhileDisabled) ∧
    (∀ b x, exec (.data b) s = .refused x ↔
      (e.cEn = false ∧ x = .deviceCommandWhileDisabled) ∨
      (e.cEn = true ∧ e.bus = .idle ∧ x = .deviceDataOnIdleBus)) ∧
    (∀ b x, exec (.dataStop b) s = .refused x ↔
      (e.cEn = false ∧ x = .deviceCommandWhileDisabled) ∨
      (e.cEn = true ∧ e.bus = .idle ∧ x = .deviceDataOnIdleBus)) ∧
    (∀ i ∈ [Instr.wSelW, .wSelR], ∀ x, exec i s = .refused x ↔ e.cEn = false ∧ x = .deviceCommandWhileDisabled) ∧
    (∀ i ∈ [Instr.wOffset, .wCont, .wLast], ∀ x, exec i s = .refused x ↔
      (e.cEn = false ∧ x = .deviceCommandWhileDisabled) ∨
      (e.cEn = true ∧ e.bus = .idle ∧ x = .deviceDataOnIdleBus))

/-! The environments. -/

/-- E2's answers: the poll register shows the two ready bits, or none of them where the next latency draw says so; a read of
received-data consumes the byte; every other read is refused (R63). Where `OFF_POLL` is one of the registers of which R63
says something else, that the read is a poll read is the model's choice (log entry 19), and so are the draws (log entry
18). -/
def Obligations.DeviceAnswersReads : Prop :=
  ∀ (c : Config) (n : Nat) (e : Device),
    (e.lag = [] → (Env.device e).answer c n c.offPoll = .ok
      ((if e.cEn then c.txReady else 0#32) ||| (if e.rxValid then c.rxReady else 0#32), .device e)) ∧
    (∀ late rest, e.lag = late :: rest → (Env.device e).answer c n c.offPoll = .ok
      (if late then 0#32
        else (if e.cEn then c.txReady else 0#32) ||| (if e.rxValid then c.rxReady else 0#32),
        .device { e with lag := rest })) ∧
    (c.offPoll ≠ .rxdata → e.rxValid = true →
      (Env.device e).answer c n .rxdata = .ok (e.rxByte.setWidth 32, .device { e with rxValid := false })) ∧
    (c.offPoll ≠ .rxdata → e.rxValid = false → (Env.device e).answer c n .rxdata = .error .deviceNoByteWaiting) ∧
    ∀ r, r ≠ c.offPoll → r ≠ .rxdata → (Env.device e).answer c n r = .error .deviceNoMeaning

/-- E2's writes: control enables or disables (disabling drops the bus and the waiting byte), the timing registers are taken
only while disabled, the acknowledge changes nothing, a command is only latched (log entry 7), the rest is refused (R63). -/
def Obligations.DeviceAbsorbsWrites : Prop :=
  ∀ (c : Config) (v : Word) (e : Device), c.wf = true →
    (Env.device e).absorb c .ctrl c.ctrlEnable = .ok (.device { e with cEn := true }) ∧
    (Env.device e).absorb c .ctrl 0#32 = .ok (.device { e with cEn := false, bus := .idle, rxValid := false }) ∧
    (v ≠ c.ctrlEnable → v ≠ 0#32 → (Env.device e).absorb c .ctrl v = .error .deviceControlValue) ∧
    (e.cEn = false →
      (Env.device e).absorb c .scllow v = .ok (.device { e with tLow := v }) ∧
      (Env.device e).absorb c .sclhigh v = .ok (.device { e with tHigh := v }) ∧
      (Env.device e).absorb c .sdahold v = .ok (.device { e with tHold := v })) ∧
    (e.cEn = true → ∀ r ∈ [Reg.scllow, Reg.sclhigh, Reg.sdahold],
      (Env.device e).absorb c r v = .error .deviceTimingWhileEnabled) ∧
    (Env.device e).absorb c .isr v = .ok (.device e) ∧
    (Env.device e).absorb c .cmd v = .ok (.device e) ∧
    ∀ r ∈ [Reg.rxdata, Reg.ien, Reg.status, Reg.txlvl, Reg.rxlvl],
      (Env.device e).absorb c r v = .error .deviceNoMeaning

/-- E1's answers: both ready bits, but in the stuck poll the awaited one clear; the `j`-th data read gives byte `j - 1` of
the image (R62). How polls are numbered is log entry 17; that a read of received-data is a poll read where `OFF_POLL` names
it is the model's choice (log entry 19). -/
def Obligations.DoubleAnswersReads : Prop :=
  ∀ (c : Config) (n : Nat) (e : Double), c.wf = true →
    (∀ k, e.pollNumber = k → e.stuck ≠ some k →
      ∃ v, (Env.double e).answer c n c.offPoll = .ok (v, .double { e with polls := k, inPoll := true }) ∧
        v &&& c.txReady ≠ 0#32 ∧ v &&& c.rxReady ≠ 0#32) ∧
    (∀ k, e.pollNumber = k → e.stuck = some k →
      ∃ v, (Env.double e).answer c n c.offPoll = .ok (v, .double { e with polls := k, inPoll := true }) ∧
        v &&& awaitedBit c k = 0#32 ∧ v &&& ~~~(c.txReady ||| c.rxReady) = 0#32) ∧
    (c.offPoll ≠ .rxdata → ∀ x, e.img[e.dataReads]? = some x →
      (Env.double e).answer c n .rxdata =
        .ok (x.setWidth 32, .double { e with dataReads := e.dataReads + 1, inPoll := false }))

/-- E1 and E2 refine E0: whatever an instruction does under any environment it does under E0 with a tape of at most one
answer (R60). -/
def Obligations.EveryStepIsAnOracleStep : Prop :=
  ∀ (i : Instr) (s t : State), exec i s = .next t →
    ∃ tape t', tape.length ≤ 1 ∧ exec i { s with env := .oracle tape } = .next t' ∧ { t' with env := t.env } = t

/-- The block is deterministic given the environment's answers: two steps that differ in the environment alone and make
the same event leave the same state but for the environment (R57). -/
def Obligations.SameAnswersSameState : Prop :=
  ∀ (i : Instr) (s t t' : State) (e : Env), exec i s = .next t → exec i { s with env := e } = .next t' →
    t.trace = t'.trace → { t' with env := t.env } = t

/-! The accessors and the host. -/

/-- MAC_ADDRESS: refused before `done`; then the stored error first, then the format, then bytes 1 to 6 in index order;
no event and no other change (R150 to R152, R154). -/
def Obligations.MacAddressResult : Prop :=
  ∀ (s : State) (rest : List HostMove), s.inFlight = none → s.host = .macAddress :: rest →
    (s.done = false → step s = .refused .readBeforeDone) ∧
    (s.done = true → s.err ≠ .ok → step s = .next { s with host := rest, replies := s.replies ++ [.mac s.err []] }) ∧
    (∀ b, s.done = true → s.err = .ok → s.buf.get? 0 = some b → b ≠ 0#8 →
      step s = .next { s with host := rest, replies := s.replies ++ [.mac .unrecognizedFormat []] }) ∧
    (∀ m0 m1 m2 m3 m4 m5, s.done = true → s.err = .ok → s.buf.get? 0 = some 0#8 → s.buf.get? 1 = some m0 → s.buf.get? 2 = some m1 →
      s.buf.get? 3 = some m2 → s.buf.get? 4 = some m3 → s.buf.get? 5 = some m4 → s.buf.get? 6 = some m5 →
      step s = .next { s with host := rest, replies := s.replies ++ [.mac .ok [m0, m1, m2, m3, m4, m5]] })

/-- ASSET_TAG: refused before `done`; then the stored error, then the format, then the capacity; on ok the ten bytes from 7
and a terminator at index 10, the rest of the caller's buffer kept; on failure all of it kept (R151, R153). `cap` alone
decides, whatever bytes of the buffer `out` gives (log entry 23). -/
def Obligations.AssetTagResult : Prop :=
  ∀ (s : State) (rest : List HostMove) (out : List Byte) (cap : Nat), s.inFlight = none →
    s.host = .assetTag out cap :: rest →
    (s.done = false → step s = .refused .readBeforeDone) ∧
    (s.done = true → s.err ≠ .ok → step s = .next { s with host := rest, replies := s.replies ++ [.tag s.err out] }) ∧
    (∀ b, s.done = true → s.err = .ok → s.buf.get? 0 = some b → b ≠ 0#8 →
      step s = .next { s with host := rest, replies := s.replies ++ [.tag .unrecognizedFormat out] }) ∧
    (s.done = true → s.err = .ok → s.buf.get? 0 = some 0#8 → cap < 11 →
      step s = .next { s with host := rest, replies := s.replies ++ [.tag .insufficientCapacity out] }) ∧
    (∀ tag : List Byte, s.done = true → s.err = .ok → s.buf.get? 0 = some 0#8 → 11 ≤ cap → tag.length = 10 →
      (∀ i, i < 10 → s.buf.get? (7 + i) = tag[i]?) →
      step s = .next { s with host := rest, replies := s.replies ++ [.tag .ok (tag ++ 0#8 :: out.drop 11)] })

/-- Calling an accessor twice gives the same answer twice and makes no event (R150, R155). -/
def Obligations.AccessorsAreIdempotent : Prop :=
  ∀ (s t u : State) (m : HostMove) (rest : List HostMove), s.inFlight = none → s.host = m :: m :: rest →
    (m = .macAddress ∨ ∃ out cap, m = .assetTag out cap) → step s = .next t → step t = .next u →
    u.trace = s.trace ∧ ∃ a, t.replies = s.replies ++ [a] ∧ u.replies = t.replies ++ [a] ∧
      u = { s with host := rest, replies := u.replies }

/-- While `done = 0` the accessors and a read of `err` are refused; `done` can be read at any time, and `err` while
`done = 1` (R19, R150, R170). -/
def Obligations.EarlyReadsAreRefused : Prop :=
  ∀ (s : State) (m : HostMove) (rest : List HostMove), s.inFlight = none → s.host = m :: rest →
    (s.done = false → (m = .macAddress ∨ m = .readErr ∨ ∃ out cap, m = .assetTag out cap) →
      step s = .refused .readBeforeDone) ∧
    (m = .readDone → step s = .next { s with host := rest, replies := s.replies ++ [.doneFlag s.done] }) ∧
    (s.done = true → m = .readErr →
      step s = .next { s with host := rest, replies := s.replies ++ [.errCode s.err] })

/-- `load_start` is refused while a LOAD runs and begins one from `IDLE` and `DONE` while the window is mapped (R126). No
byte of `buf` is set; while `done = 0` each holds any value, which the empty list of known bytes says (R19; log entry 26). -/
def Obligations.LoadStartOnlyWhenNotLoading : Prop :=
  ∀ (s : State) (rest : List HostMove), s.inFlight = none → s.host = .loadStart :: rest →
    (s.phase ≠ .idle → s.phase ≠ .done → step s = .refused .loadStartDuringLoad) ∧
    (s.phase = .idle ∨ s.phase = .done → s.window ≠ none → step s = .next { s with
      host := rest, done := false, err := .ok, buf := [], phase := .initDisable, sub := .poll })

/-- Detach only outside a LOAD; after it `load_start` is refused until a window is attached again (R68, D23). That the
environment and the register cells stay as they were is the model's choice (log entry 30). -/
def Obligations.DetachOnlyOutsideALoad : Prop :=
  ∀ (s : State) (rest : List HostMove), s.inFlight = none →
    (s.host = .detach :: rest → s.window ≠ none → s.phase ≠ .idle → s.phase ≠ .done →
      step s = .refused .detachDuringLoad) ∧
    (s.host = .detach :: rest → s.window ≠ none → s.phase = .idle ∨ s.phase = .done →
      step s = .next { s with host := rest, window := none }) ∧
    (s.host = .loadStart :: rest → s.window = none → s.phase = .idle ∨ s.phase = .done →
      step s = .refused .notAttached) ∧
    (∀ base, s.host = .attach base :: rest → s.window = none → base % 4 = 0 →
      step s = .next { s with host := rest, window := some base })

/-- The reset event: `phase = IDLE`, `sub = POLL`, `done = 0`, no byte of `buf` known, no event; the controller is left as
it was, except that after a reset in a LOAD nothing is known of it (R43, R185, R186; log entry 15). -/
def Obligations.ResetEventGatesTheBlock : Prop :=
  ∀ (s : State) (rest : List HostMove), s.inFlight = none → s.host = .reset :: rest →
    ∃ t, step s = .next t ∧ t.phase = .idle ∧ t.sub = .poll ∧ t.done = false ∧ (∀ i, t.buf.get? i = none) ∧
      t.trace = s.trace ∧ t.regs = s.regs ∧ t.window = s.window ∧ t.replies = s.replies ∧ t.host = rest ∧
      (s.phase = .idle ∨ s.phase = .done → t.env = s.env) ∧
      (s.phase ≠ .idle → s.phase ≠ .done → t.env = .oracle [])

/-! Sequences. -/

/-- INIT: under every environment the same seven events, from disable over the three timing writes and the acknowledge to
enable and the settle delay (R98). -/
def Obligations.InitPerformsItsSequence : Prop :=
  ∀ s : State, s.cfg.wf = true → atLoadStart s → s.window ≠ none →
    ∃ t, runSteps 7 s = .next t ∧ t.phase = .preAck ∧ t.sub = .poll ∧
      t.trace = s.trace ++ [.w s.cfg.offCtrl 0#32, .w s.cfg.offScllow 500#32, .w s.cfg.offSclhigh 500#32,
        .w s.cfg.offSdahold 30#32, .w s.cfg.offIsr 0xFFFFFFFF#32, .w s.cfg.offCtrl s.cfg.ctrlEnable, .d 10] ∧
      t.err = s.err ∧ t.done = s.done ∧ t.buf = s.buf ∧ t.remaining = s.remaining ∧ t.pollCnt = s.pollCnt

/-- A poll whose first 100 000 answers all show the awaited bit clear fails after exactly these reads and as many delays;
nothing is written, no further read is made (R91, R142, R162). -/
def Obligations.PollTimesOutExactly : Prop :=
  ∀ (s : State) (answers rest : List Word), s.phase ∈ pollPhases → s.sub = .poll → s.pollCnt = 0#17 →
    s.inFlight = none → s.host = [] → s.window ≠ none → s.env = .oracle (answers ++ rest) →
    answers.length = 100000 → (∀ v ∈ answers, v &&& awaited s.cfg s.phase = 0#32) →
    ∃ t, runSteps 200000 s = .next t ∧ t.phase = .finDisable ∧ t.sub = .poll ∧ t.err = .timeout ∧
      t.pollCnt = 100000#17 ∧ t.env = .oracle rest ∧ t.buf = s.buf ∧ t.remaining = s.remaining ∧ t.done = s.done ∧
      t.inFlight = none ∧
      t.trace = s.trace ++ answers.flatMap fun v => [Event.r (s.cfg.off s.cfg.offPoll) v, Event.d 1]

/-- A poll that sees `n` not-ready answers and then a ready one, `n` below the bound, performs `n + 1` reads and `n`
delays and goes on to the transfer (R91). -/
def Obligations.PollSucceedsWithinItsBound : Prop :=
  ∀ (s : State) (answers rest : List Word) (w : Word), s.phase ∈ pollPhases → s.sub = .poll → s.pollCnt = 0#17 →
    s.inFlight = none → s.host = [] → s.window ≠ none → s.env = .oracle (answers ++ w :: rest) →
    answers.length < 100000 → (∀ v ∈ answers, v &&& awaited s.cfg s.phase = 0#32) →
    w &&& awaited s.cfg s.phase ≠ 0#32 →
    ∃ t, runSteps (2 * answers.length + 1) s = .next t ∧ t.phase = s.phase ∧ t.sub = .xfer ∧ t.err = s.err ∧
      t.pollCnt.toNat = answers.length ∧ t.env = .oracle rest ∧ t.buf = s.buf ∧ t.remaining = s.remaining ∧
      t.inFlight = none ∧
      t.trace = s.trace ++ (answers.flatMap fun v => [Event.r (s.cfg.off s.cfg.offPoll) v, Event.d 1]) ++
        [Event.r (s.cfg.off s.cfg.offPoll) w]

/-- The phase machine and the procedure agree: the same trace, `err`, `done`, `buf`, `remaining` and environment, or the same
refusal, in every environment (R145); and the same `poll_cnt` after a failure, while after a success the phase machine has
cleared it (R127, R141) and the procedure has not (R91; log entry 29). -/
def Obligations.LoadMatchesTheProcedure : Prop :=
  ∀ s : State, Inv s → atLoadStart s →
    match loadProc s with
    | .ok u => ∃ n t, runSteps n s = .next t ∧ t.phase = .done ∧ t.trace = u.trace ∧ t.err = u.err ∧ t.done = u.done ∧
        t.buf = u.buf ∧ t.remaining = u.remaining ∧ t.env = u.env ∧
        t.pollCnt = if u.err = .ok then 0#17 else u.pollCnt
    | .timeout _ => False
    | .stop x => ∃ n, runSteps n s = .refused x
    | .broken _ => False

/-- LOAD ends: from every good state inside a LOAD, the host being silent, `DONE` is reached or the environment refuses
within 103 000 527 steps (the 103 000 268 events of R149 and 259 steps of the controller); E0 never refuses (R149). -/
def Obligations.LoadTerminates : Prop :=
  ∀ s : State, Inv s → s.phase.busy = true → s.host = [] →
    ∃ n, n ≤ 103000527 ∧
      ((∃ t, runSteps n s = .next t ∧ t.phase = .done ∧ t.done = true) ∨
        ((∀ tape, s.env ≠ .oracle tape) ∧ ∃ x, runSteps n s = .refused x))

/-- LOAD under the ideal test double with nothing stuck: success, `buf = img`, 267 writes of which 259 are commands, 771
reads of which 515 are poll reads and 256 data reads, 260 delays (R146); polls do not read received-data (log entry 19). -/
def Obligations.LoadUnderIdealDouble : Prop :=
  ∀ (s : State) (e : Double), Inv s → atLoadStart s → s.env = .double e → e.stuck = none → s.cfg.offPoll ≠ .rxdata →
    ∃ t evs, runSteps 1557 s = .next t ∧ t.phase = .done ∧ t.done = true ∧ t.err = .ok ∧ t.remaining = 0#9 ∧
      (∀ i, i < 256 → t.buf.get? i = e.img[i]?) ∧ t.trace = s.trace ++ evs ∧ evs.length = 1298 ∧ writes evs = 267 ∧
      writesAt s.cfg.offCmd evs = 259 ∧ reads evs = 771 ∧ readsAt (s.cfg.off s.cfg.offPoll) evs = 515 ∧
      readsAt s.cfg.offRxdata evs = 256 ∧ delays evs = 260

/-- LOAD under the test double with poll `k` stuck: `Timeout`, the events before poll `k`, then 100 000 read and delay
pairs with the awaited bit clear, then the disabling write (R147, V5). Polls are numbered as log entry 17 says and do not
read received-data (log entry 19). That the list of known bytes is empty afterwards is the model's choice (log entry 26, for
R19; R164 itself says that `buf` keeps the bytes already stored). -/
def Obligations.LoadUnderStuckDouble : Prop :=
  ∀ (s : State) (e : Double) (k : Nat), Inv s → atLoadStart s → s.env = .double e → e.stuck = some k → 1 ≤ k →
    k ≤ 515 → s.cfg.offPoll ≠ .rxdata →
    ∃ n t pre v, runSteps n s = .next t ∧ t.phase = .done ∧ t.done = true ∧ t.err = .timeout ∧ t.pollCnt = 100000#17 ∧
      (∀ i, t.buf.get? i = none) ∧ v &&& awaitedBit s.cfg k = 0#32 ∧
      t.trace = s.trace ++ pre ++
        (List.replicate 100000 [Event.r (s.cfg.off s.cfg.offPoll) v, Event.d 1]).flatten ++
        [Event.w s.cfg.offCtrl 0#32] ∧
      pre.length = eventsBefore k ∧ writesAt s.cfg.offCmd pre = commandsBefore k ∧
      readsAt s.cfg.offRxdata pre = bytesBefore k

/-- Under E2 with a device that answers, every step keeps what holds of block and device together, and with the host
silent no access is refused (R148). -/
def Obligations.StepKeepsDeviceInv : Prop :=
  ∀ (s : State) (e : Device), Inv s → s.env = .device e → DeviceInv s e →
    (∀ t e', step s = .next t → t.env = .device e' → DeviceInv t e') ∧ (s.host = [] → ∃ t, step s = .next t)

/-- LOAD under E2 with a device that answers at once: success, `buf = rom`, and the end state of E2 (R148). -/
def Obligations.LoadUnderReferenceDevice : Prop :=
  ∀ (s : State) (e : Device), Inv s → atLoadStart s → s.env = .device e → e.present = true → e.lag = [] →
    s.cfg.offPoll ≠ .rxdata →
    ∃ t e', runSteps 1557 s = .next t ∧ t.phase = .done ∧ t.done = true ∧ t.err = .ok ∧
      (∀ i, i < 256 → t.buf.get? i = e.rom[i]?) ∧ t.env = .device e' ∧ e'.cEn = false ∧ e'.bus = .idle ∧
      e'.rxValid = false ∧ e'.ptr = 0#8 ∧ e'.tLow = 500#32 ∧ e'.tHigh = 500#32 ∧ e'.tHold = 30#32

/-- LOAD under E2 with no device at the address: `Timeout` at the first receive poll, after four commands and no byte
(R148). That the list of known bytes is empty afterwards is the model's choice (log entry 26, for R19). Polls do not read
received-data (log entry 19); the device's absence is a field of the model (log entry 18). -/
def Obligations.LoadWithoutADevice : Prop :=
  ∀ (s : State) (e : Device), Inv s → atLoadStart s → s.env = .device e → e.present = false → e.lag = [] →
    s.cfg.offPoll ≠ .rxdata →
    ∃ n t evs, runSteps n s = .next t ∧ t.phase = .done ∧ t.done = true ∧ t.err = .timeout ∧
      t.trace = s.trace ++ evs ∧ writesAt s.cfg.offCmd evs = 4 ∧ readsAt s.cfg.offRxdata evs = 0 ∧
      t.remaining = 256#9 ∧ ∀ i, t.buf.get? i = none

/-! The cache. -/

/-- While `done = 1`, nothing but `load_start` and the reset event changes `err`, `buf` or `done`, so both accessors keep
their answers (R66, R155, R173). -/
def Obligations.CacheIsFrozenWhileDone : Prop :=
  ∀ s t : State, Inv s → s.done = true → (∀ rest, s.host ≠ .loadStart :: rest) → (∀ rest, s.host ≠ .reset :: rest) →
    step s = .next t →
    t.phase = .done ∧ t.done = true ∧ t.err = s.err ∧ t.buf = s.buf ∧ macAddress t = macAddress s ∧
      ∀ out cap, assetTag out cap t = assetTag out cap s

/-- "`buf` may be read only when `done = 1` and `err = OK`": otherwise a read gives a free value at every index, whatever
has been stored, and then it gives the byte the LOAD stored (R18, R19). -/
def Obligations.OnlyAFinishedLoadIsReadable : Prop :=
  ∀ (s : State) (i : Nat),
    (s.done = false ∨ s.err ≠ .ok → s.bufByte i = Config.freeBufByte s.draws i) ∧
    (Inv s → s.done = true → s.err = .ok → i < 256 → ∃ b, s.buf.get? i = some b ∧ s.bufByte i = b)

/-! The configuration. -/

/-- The machine that takes its configuration as a parameter of the step, and whose state holds none, runs from every state
exactly as the steps that carry it beside the state, which end with the same configuration (R7, R23; log entry 1). -/
def Obligations.ConfigurationIsAParameter : Prop :=
  ∀ (c : Config) (base n : Nat) (b : Block), (coreUnder c base).run n b = blockOutcome (runSteps n (b.under c)) ∧
    ∀ t, runSteps n (b.under c) = .next t → t.cfg = c

/-! The end of a LOAD. -/

/-- The step that ends a LOAD leaves `DONE`, `POLL`, `done = 1` and control written with 0; `err`, `remaining` and
`poll_cnt` stay, `remaining` being 0 after a success and `poll_cnt` the count of the last poll, the bound, after a failure
(R45). After a success `poll_cnt` is what the last pass of `RCV` left (R127, R141; log entry 29). -/
def Obligations.EndOfALoad : Prop :=
  ∀ s t : State, Inv s → step s = .next t → s.phase ≠ .done → t.phase = .done →
    s.phase = .finDisable ∧ t.sub = .poll ∧ t.done = true ∧ t.err = s.err ∧ t.remaining = s.remaining ∧
      t.pollCnt = s.pollCnt ∧ (t.err = .ok → t.remaining = 0#9) ∧ (t.err ≠ .ok → t.pollCnt = 100000#17) ∧
      t.regs.ctrl = 0#32 ∧ t.trace = s.trace ++ [.w s.cfg.offCtrl 0#32]
end

