-- ==== Sys2Proof/Laws/State.lean ====
section
/-! SUPPORT. What each update of the state does to each field: one lemma per field per update. -/

namespace Sys2Proof.Machine

/-! `State.emit` -/

@[simp] theorem State.emit_phase (e : Event) (s : State) : (s.emit e).phase = s.phase := rfl
@[simp] theorem State.emit_sub (e : Event) (s : State) : (s.emit e).sub = s.sub := rfl
@[simp] theorem State.emit_remaining (e : Event) (s : State) : (s.emit e).remaining = s.remaining := rfl
@[simp] theorem State.emit_pollCnt (e : Event) (s : State) : (s.emit e).pollCnt = s.pollCnt := rfl
@[simp] theorem State.emit_err (e : Event) (s : State) : (s.emit e).err = s.err := rfl
@[simp] theorem State.emit_done (e : Event) (s : State) : (s.emit e).done = s.done := rfl
@[simp] theorem State.emit_buf (e : Event) (s : State) : (s.emit e).buf = s.buf := rfl
@[simp] theorem State.emit_regs (e : Event) (s : State) : (s.emit e).regs = s.regs := rfl
@[simp] theorem State.emit_inFlight (e : Event) (s : State) : (s.emit e).inFlight = s.inFlight := rfl
@[simp] theorem State.emit_env (e : Event) (s : State) : (s.emit e).env = s.env := rfl
@[simp] theorem State.emit_window (e : Event) (s : State) : (s.emit e).window = s.window := rfl
@[simp] theorem State.emit_host (e : Event) (s : State) : (s.emit e).host = s.host := rfl
@[simp] theorem State.emit_replies (e : Event) (s : State) : (s.emit e).replies = s.replies := rfl
@[simp] theorem State.emit_trace (e : Event) (s : State) : (s.emit e).trace = s.trace ++ [e] := rfl
@[simp] theorem State.emit_draws (e : Event) (s : State) : (s.emit e).draws = s.draws := rfl
@[simp] theorem State.emit_cfg (e : Event) (s : State) : (s.emit e).cfg = s.cfg := rfl

/-! `State.goto` -/

@[simp] theorem State.goto_phase (p : Phase) (q : Sub) (s : State) : (s.goto p q).phase = p := rfl
@[simp] theorem State.goto_sub (p : Phase) (q : Sub) (s : State) : (s.goto p q).sub = q := rfl
@[simp] theorem State.goto_remaining (p : Phase) (q : Sub) (s : State) : (s.goto p q).remaining = s.remaining := rfl
@[simp] theorem State.goto_pollCnt (p : Phase) (q : Sub) (s : State) : (s.goto p q).pollCnt = s.pollCnt := rfl
@[simp] theorem State.goto_err (p : Phase) (q : Sub) (s : State) : (s.goto p q).err = s.err := rfl
@[simp] theorem State.goto_done (p : Phase) (q : Sub) (s : State) : (s.goto p q).done = s.done := rfl
@[simp] theorem State.goto_buf (p : Phase) (q : Sub) (s : State) : (s.goto p q).buf = s.buf := rfl
@[simp] theorem State.goto_regs (p : Phase) (q : Sub) (s : State) : (s.goto p q).regs = s.regs := rfl
@[simp] theorem State.goto_inFlight (p : Phase) (q : Sub) (s : State) : (s.goto p q).inFlight = s.inFlight := rfl
@[simp] theorem State.goto_env (p : Phase) (q : Sub) (s : State) : (s.goto p q).env = s.env := rfl
@[simp] theorem State.goto_window (p : Phase) (q : Sub) (s : State) : (s.goto p q).window = s.window := rfl
@[simp] theorem State.goto_host (p : Phase) (q : Sub) (s : State) : (s.goto p q).host = s.host := rfl
@[simp] theorem State.goto_replies (p : Phase) (q : Sub) (s : State) : (s.goto p q).replies = s.replies := rfl
@[simp] theorem State.goto_trace (p : Phase) (q : Sub) (s : State) : (s.goto p q).trace = s.trace := rfl
@[simp] theorem State.goto_draws (p : Phase) (q : Sub) (s : State) : (s.goto p q).draws = s.draws := rfl
@[simp] theorem State.goto_cfg (p : Phase) (q : Sub) (s : State) : (s.goto p q).cfg = s.cfg := rfl

/-! `State.setPollCnt` -/

@[simp] theorem State.setPollCnt_phase (n : BitVec 17) (s : State) : (s.setPollCnt n).phase = s.phase := rfl
@[simp] theorem State.setPollCnt_sub (n : BitVec 17) (s : State) : (s.setPollCnt n).sub = s.sub := rfl
@[simp] theorem State.setPollCnt_remaining (n : BitVec 17) (s : State) : (s.setPollCnt n).remaining = s.remaining := rfl
@[simp] theorem State.setPollCnt_pollCnt (n : BitVec 17) (s : State) : (s.setPollCnt n).pollCnt = n := rfl
@[simp] theorem State.setPollCnt_err (n : BitVec 17) (s : State) : (s.setPollCnt n).err = s.err := rfl
@[simp] theorem State.setPollCnt_done (n : BitVec 17) (s : State) : (s.setPollCnt n).done = s.done := rfl
@[simp] theorem State.setPollCnt_buf (n : BitVec 17) (s : State) : (s.setPollCnt n).buf = s.buf := rfl
@[simp] theorem State.setPollCnt_regs (n : BitVec 17) (s : State) : (s.setPollCnt n).regs = s.regs := rfl
@[simp] theorem State.setPollCnt_inFlight (n : BitVec 17) (s : State) : (s.setPollCnt n).inFlight = s.inFlight := rfl
@[simp] theorem State.setPollCnt_env (n : BitVec 17) (s : State) : (s.setPollCnt n).env = s.env := rfl
@[simp] theorem State.setPollCnt_window (n : BitVec 17) (s : State) : (s.setPollCnt n).window = s.window := rfl
@[simp] theorem State.setPollCnt_host (n : BitVec 17) (s : State) : (s.setPollCnt n).host = s.host := rfl
@[simp] theorem State.setPollCnt_replies (n : BitVec 17) (s : State) : (s.setPollCnt n).replies = s.replies := rfl
@[simp] theorem State.setPollCnt_trace (n : BitVec 17) (s : State) : (s.setPollCnt n).trace = s.trace := rfl
@[simp] theorem State.setPollCnt_draws (n : BitVec 17) (s : State) : (s.setPollCnt n).draws = s.draws := rfl
@[simp] theorem State.setPollCnt_cfg (n : BitVec 17) (s : State) : (s.setPollCnt n).cfg = s.cfg := rfl

/-! `State.setRemaining` -/

@[simp] theorem State.setRemaining_phase (n : BitVec 9) (s : State) : (s.setRemaining n).phase = s.phase := rfl
@[simp] theorem State.setRemaining_sub (n : BitVec 9) (s : State) : (s.setRemaining n).sub = s.sub := rfl
@[simp] theorem State.setRemaining_remaining (n : BitVec 9) (s : State) : (s.setRemaining n).remaining = n := rfl
@[simp] theorem State.setRemaining_pollCnt (n : BitVec 9) (s : State) : (s.setRemaining n).pollCnt = s.pollCnt := rfl
@[simp] theorem State.setRemaining_err (n : BitVec 9) (s : State) : (s.setRemaining n).err = s.err := rfl
@[simp] theorem State.setRemaining_done (n : BitVec 9) (s : State) : (s.setRemaining n).done = s.done := rfl
@[simp] theorem State.setRemaining_buf (n : BitVec 9) (s : State) : (s.setRemaining n).buf = s.buf := rfl
@[simp] theorem State.setRemaining_regs (n : BitVec 9) (s : State) : (s.setRemaining n).regs = s.regs := rfl
@[simp] theorem State.setRemaining_inFlight (n : BitVec 9) (s : State) : (s.setRemaining n).inFlight = s.inFlight := rfl
@[simp] theorem State.setRemaining_env (n : BitVec 9) (s : State) : (s.setRemaining n).env = s.env := rfl
@[simp] theorem State.setRemaining_window (n : BitVec 9) (s : State) : (s.setRemaining n).window = s.window := rfl
@[simp] theorem State.setRemaining_host (n : BitVec 9) (s : State) : (s.setRemaining n).host = s.host := rfl
@[simp] theorem State.setRemaining_replies (n : BitVec 9) (s : State) : (s.setRemaining n).replies = s.replies := rfl
@[simp] theorem State.setRemaining_trace (n : BitVec 9) (s : State) : (s.setRemaining n).trace = s.trace := rfl
@[simp] theorem State.setRemaining_draws (n : BitVec 9) (s : State) : (s.setRemaining n).draws = s.draws := rfl
@[simp] theorem State.setRemaining_cfg (n : BitVec 9) (s : State) : (s.setRemaining n).cfg = s.cfg := rfl

/-! `State.setBuf` -/

@[simp] theorem State.setBuf_phase (i : Nat) (b : Byte) (s : State) : (s.setBuf i b).phase = s.phase := rfl
@[simp] theorem State.setBuf_sub (i : Nat) (b : Byte) (s : State) : (s.setBuf i b).sub = s.sub := rfl
@[simp] theorem State.setBuf_remaining (i : Nat) (b : Byte) (s : State) : (s.setBuf i b).remaining = s.remaining := rfl
@[simp] theorem State.setBuf_pollCnt (i : Nat) (b : Byte) (s : State) : (s.setBuf i b).pollCnt = s.pollCnt := rfl
@[simp] theorem State.setBuf_err (i : Nat) (b : Byte) (s : State) : (s.setBuf i b).err = s.err := rfl
@[simp] theorem State.setBuf_done (i : Nat) (b : Byte) (s : State) : (s.setBuf i b).done = s.done := rfl
@[simp] theorem State.setBuf_buf (i : Nat) (b : Byte) (s : State) : (s.setBuf i b).buf = s.buf.set i b := rfl
@[simp] theorem State.setBuf_regs (i : Nat) (b : Byte) (s : State) : (s.setBuf i b).regs = s.regs := rfl
@[simp] theorem State.setBuf_inFlight (i : Nat) (b : Byte) (s : State) : (s.setBuf i b).inFlight = s.inFlight := rfl
@[simp] theorem State.setBuf_env (i : Nat) (b : Byte) (s : State) : (s.setBuf i b).env = s.env := rfl
@[simp] theorem State.setBuf_window (i : Nat) (b : Byte) (s : State) : (s.setBuf i b).window = s.window := rfl
@[simp] theorem State.setBuf_host (i : Nat) (b : Byte) (s : State) : (s.setBuf i b).host = s.host := rfl
@[simp] theorem State.setBuf_replies (i : Nat) (b : Byte) (s : State) : (s.setBuf i b).replies = s.replies := rfl
@[simp] theorem State.setBuf_trace (i : Nat) (b : Byte) (s : State) : (s.setBuf i b).trace = s.trace := rfl
@[simp] theorem State.setBuf_draws (i : Nat) (b : Byte) (s : State) : (s.setBuf i b).draws = s.draws := rfl
@[simp] theorem State.setBuf_cfg (i : Nat) (b : Byte) (s : State) : (s.setBuf i b).cfg = s.cfg := rfl

/-! `State.setEnv` -/

@[simp] theorem State.setEnv_phase (e : Env) (s : State) : (s.setEnv e).phase = s.phase := rfl
@[simp] theorem State.setEnv_sub (e : Env) (s : State) : (s.setEnv e).sub = s.sub := rfl
@[simp] theorem State.setEnv_remaining (e : Env) (s : State) : (s.setEnv e).remaining = s.remaining := rfl
@[simp] theorem State.setEnv_pollCnt (e : Env) (s : State) : (s.setEnv e).pollCnt = s.pollCnt := rfl
@[simp] theorem State.setEnv_err (e : Env) (s : State) : (s.setEnv e).err = s.err := rfl
@[simp] theorem State.setEnv_done (e : Env) (s : State) : (s.setEnv e).done = s.done := rfl
@[simp] theorem State.setEnv_buf (e : Env) (s : State) : (s.setEnv e).buf = s.buf := rfl
@[simp] theorem State.setEnv_regs (e : Env) (s : State) : (s.setEnv e).regs = s.regs := rfl
@[simp] theorem State.setEnv_inFlight (e : Env) (s : State) : (s.setEnv e).inFlight = s.inFlight := rfl
@[simp] theorem State.setEnv_env (e : Env) (s : State) : (s.setEnv e).env = e := rfl
@[simp] theorem State.setEnv_window (e : Env) (s : State) : (s.setEnv e).window = s.window := rfl
@[simp] theorem State.setEnv_host (e : Env) (s : State) : (s.setEnv e).host = s.host := rfl
@[simp] theorem State.setEnv_replies (e : Env) (s : State) : (s.setEnv e).replies = s.replies := rfl
@[simp] theorem State.setEnv_trace (e : Env) (s : State) : (s.setEnv e).trace = s.trace := rfl
@[simp] theorem State.setEnv_draws (e : Env) (s : State) : (s.setEnv e).draws = s.draws := rfl
@[simp] theorem State.setEnv_cfg (e : Env) (s : State) : (s.setEnv e).cfg = s.cfg := rfl

/-! `State.setReg` -/

@[simp] theorem State.setReg_phase (r : Reg) (v : Word) (s : State) : (s.setReg r v).phase = s.phase := rfl
@[simp] theorem State.setReg_sub (r : Reg) (v : Word) (s : State) : (s.setReg r v).sub = s.sub := rfl
@[simp] theorem State.setReg_remaining (r : Reg) (v : Word) (s : State) : (s.setReg r v).remaining = s.remaining := rfl
@[simp] theorem State.setReg_pollCnt (r : Reg) (v : Word) (s : State) : (s.setReg r v).pollCnt = s.pollCnt := rfl
@[simp] theorem State.setReg_err (r : Reg) (v : Word) (s : State) : (s.setReg r v).err = s.err := rfl
@[simp] theorem State.setReg_done (r : Reg) (v : Word) (s : State) : (s.setReg r v).done = s.done := rfl
@[simp] theorem State.setReg_buf (r : Reg) (v : Word) (s : State) : (s.setReg r v).buf = s.buf := rfl
@[simp] theorem State.setReg_regs (r : Reg) (v : Word) (s : State) : (s.setReg r v).regs = s.regs.set r v := rfl
@[simp] theorem State.setReg_inFlight (r : Reg) (v : Word) (s : State) : (s.setReg r v).inFlight = s.inFlight := rfl
@[simp] theorem State.setReg_env (r : Reg) (v : Word) (s : State) : (s.setReg r v).env = s.env := rfl
@[simp] theorem State.setReg_window (r : Reg) (v : Word) (s : State) : (s.setReg r v).window = s.window := rfl
@[simp] theorem State.setReg_host (r : Reg) (v : Word) (s : State) : (s.setReg r v).host = s.host := rfl
@[simp] theorem State.setReg_replies (r : Reg) (v : Word) (s : State) : (s.setReg r v).replies = s.replies := rfl
@[simp] theorem State.setReg_trace (r : Reg) (v : Word) (s : State) : (s.setReg r v).trace = s.trace := rfl
@[simp] theorem State.setReg_draws (r : Reg) (v : Word) (s : State) : (s.setReg r v).draws = s.draws := rfl
@[simp] theorem State.setReg_cfg (r : Reg) (v : Word) (s : State) : (s.setReg r v).cfg = s.cfg := rfl

/-! `State.setInFlight` -/

@[simp] theorem State.setInFlight_phase (w : Option Word) (s : State) : (s.setInFlight w).phase = s.phase := rfl
@[simp] theorem State.setInFlight_sub (w : Option Word) (s : State) : (s.setInFlight w).sub = s.sub := rfl
@[simp] theorem State.setInFlight_remaining (w : Option Word) (s : State) : (s.setInFlight w).remaining = s.remaining := rfl
@[simp] theorem State.setInFlight_pollCnt (w : Option Word) (s : State) : (s.setInFlight w).pollCnt = s.pollCnt := rfl
@[simp] theorem State.setInFlight_err (w : Option Word) (s : State) : (s.setInFlight w).err = s.err := rfl
@[simp] theorem State.setInFlight_done (w : Option Word) (s : State) : (s.setInFlight w).done = s.done := rfl
@[simp] theorem State.setInFlight_buf (w : Option Word) (s : State) : (s.setInFlight w).buf = s.buf := rfl
@[simp] theorem State.setInFlight_regs (w : Option Word) (s : State) : (s.setInFlight w).regs = s.regs := rfl
@[simp] theorem State.setInFlight_inFlight (w : Option Word) (s : State) : (s.setInFlight w).inFlight = w := rfl
@[simp] theorem State.setInFlight_env (w : Option Word) (s : State) : (s.setInFlight w).env = s.env := rfl
@[simp] theorem State.setInFlight_window (w : Option Word) (s : State) : (s.setInFlight w).window = s.window := rfl
@[simp] theorem State.setInFlight_host (w : Option Word) (s : State) : (s.setInFlight w).host = s.host := rfl
@[simp] theorem State.setInFlight_replies (w : Option Word) (s : State) : (s.setInFlight w).replies = s.replies := rfl
@[simp] theorem State.setInFlight_trace (w : Option Word) (s : State) : (s.setInFlight w).trace = s.trace := rfl
@[simp] theorem State.setInFlight_draws (w : Option Word) (s : State) : (s.setInFlight w).draws = s.draws := rfl
@[simp] theorem State.setInFlight_cfg (w : Option Word) (s : State) : (s.setInFlight w).cfg = s.cfg := rfl

/-! `State.drawn` -/

@[simp] theorem State.drawn_phase (s : State) : (s.drawn).phase = s.phase := rfl
@[simp] theorem State.drawn_sub (s : State) : (s.drawn).sub = s.sub := rfl
@[simp] theorem State.drawn_remaining (s : State) : (s.drawn).remaining = s.remaining := rfl
@[simp] theorem State.drawn_pollCnt (s : State) : (s.drawn).pollCnt = s.pollCnt := rfl
@[simp] theorem State.drawn_err (s : State) : (s.drawn).err = s.err := rfl
@[simp] theorem State.drawn_done (s : State) : (s.drawn).done = s.done := rfl
@[simp] theorem State.drawn_buf (s : State) : (s.drawn).buf = s.buf := rfl
@[simp] theorem State.drawn_regs (s : State) : (s.drawn).regs = s.regs := rfl
@[simp] theorem State.drawn_inFlight (s : State) : (s.drawn).inFlight = s.inFlight := rfl
@[simp] theorem State.drawn_env (s : State) : (s.drawn).env = s.env := rfl
@[simp] theorem State.drawn_window (s : State) : (s.drawn).window = s.window := rfl
@[simp] theorem State.drawn_host (s : State) : (s.drawn).host = s.host := rfl
@[simp] theorem State.drawn_replies (s : State) : (s.drawn).replies = s.replies := rfl
@[simp] theorem State.drawn_trace (s : State) : (s.drawn).trace = s.trace := rfl
@[simp] theorem State.drawn_draws (s : State) : (s.drawn).draws = s.draws + 1 := rfl
@[simp] theorem State.drawn_cfg (s : State) : (s.drawn).cfg = s.cfg := rfl

/-! `State.enterPoll` -/

@[simp] theorem State.enterPoll_phase (p : Phase) (s : State) : (s.enterPoll p).phase = p := rfl
@[simp] theorem State.enterPoll_sub (p : Phase) (s : State) : (s.enterPoll p).sub = .poll := rfl
@[simp] theorem State.enterPoll_remaining (p : Phase) (s : State) : (s.enterPoll p).remaining = s.remaining := rfl
@[simp] theorem State.enterPoll_pollCnt (p : Phase) (s : State) : (s.enterPoll p).pollCnt = 0#17 := rfl
@[simp] theorem State.enterPoll_err (p : Phase) (s : State) : (s.enterPoll p).err = s.err := rfl
@[simp] theorem State.enterPoll_done (p : Phase) (s : State) : (s.enterPoll p).done = s.done := rfl
@[simp] theorem State.enterPoll_buf (p : Phase) (s : State) : (s.enterPoll p).buf = s.buf := rfl
@[simp] theorem State.enterPoll_regs (p : Phase) (s : State) : (s.enterPoll p).regs = s.regs := rfl
@[simp] theorem State.enterPoll_inFlight (p : Phase) (s : State) : (s.enterPoll p).inFlight = s.inFlight := rfl
@[simp] theorem State.enterPoll_env (p : Phase) (s : State) : (s.enterPoll p).env = s.env := rfl
@[simp] theorem State.enterPoll_window (p : Phase) (s : State) : (s.enterPoll p).window = s.window := rfl
@[simp] theorem State.enterPoll_host (p : Phase) (s : State) : (s.enterPoll p).host = s.host := rfl
@[simp] theorem State.enterPoll_replies (p : Phase) (s : State) : (s.enterPoll p).replies = s.replies := rfl
@[simp] theorem State.enterPoll_trace (p : Phase) (s : State) : (s.enterPoll p).trace = s.trace := rfl
@[simp] theorem State.enterPoll_draws (p : Phase) (s : State) : (s.enterPoll p).draws = s.draws := rfl
@[simp] theorem State.enterPoll_cfg (p : Phase) (s : State) : (s.enterPoll p).cfg = s.cfg := rfl

/-! `State.flagsAtStart` -/

@[simp] theorem State.flagsAtStart_phase (s : State) : (s.flagsAtStart).phase = s.phase := rfl
@[simp] theorem State.flagsAtStart_sub (s : State) : (s.flagsAtStart).sub = s.sub := rfl
@[simp] theorem State.flagsAtStart_remaining (s : State) : (s.flagsAtStart).remaining = s.remaining := rfl
@[simp] theorem State.flagsAtStart_pollCnt (s : State) : (s.flagsAtStart).pollCnt = s.pollCnt := rfl
@[simp] theorem State.flagsAtStart_err (s : State) : (s.flagsAtStart).err = .ok := rfl
@[simp] theorem State.flagsAtStart_done (s : State) : (s.flagsAtStart).done = false := rfl
@[simp] theorem State.flagsAtStart_buf (s : State) : (s.flagsAtStart).buf = s.buf := rfl
@[simp] theorem State.flagsAtStart_regs (s : State) : (s.flagsAtStart).regs = s.regs := rfl
@[simp] theorem State.flagsAtStart_inFlight (s : State) : (s.flagsAtStart).inFlight = s.inFlight := rfl
@[simp] theorem State.flagsAtStart_env (s : State) : (s.flagsAtStart).env = s.env := rfl
@[simp] theorem State.flagsAtStart_window (s : State) : (s.flagsAtStart).window = s.window := rfl
@[simp] theorem State.flagsAtStart_host (s : State) : (s.flagsAtStart).host = s.host := rfl
@[simp] theorem State.flagsAtStart_replies (s : State) : (s.flagsAtStart).replies = s.replies := rfl
@[simp] theorem State.flagsAtStart_trace (s : State) : (s.flagsAtStart).trace = s.trace := rfl
@[simp] theorem State.flagsAtStart_draws (s : State) : (s.flagsAtStart).draws = s.draws := rfl
@[simp] theorem State.flagsAtStart_cfg (s : State) : (s.flagsAtStart).cfg = s.cfg := rfl

/-! `State.flagTimeout` -/

@[simp] theorem State.flagTimeout_phase (s : State) : (s.flagTimeout).phase = s.phase := rfl
@[simp] theorem State.flagTimeout_sub (s : State) : (s.flagTimeout).sub = s.sub := rfl
@[simp] theorem State.flagTimeout_remaining (s : State) : (s.flagTimeout).remaining = s.remaining := rfl
@[simp] theorem State.flagTimeout_pollCnt (s : State) : (s.flagTimeout).pollCnt = s.pollCnt := rfl
@[simp] theorem State.flagTimeout_err (s : State) : (s.flagTimeout).err = .timeout := rfl
@[simp] theorem State.flagTimeout_done (s : State) : (s.flagTimeout).done = s.done := rfl
@[simp] theorem State.flagTimeout_buf (s : State) : (s.flagTimeout).buf = s.buf := rfl
@[simp] theorem State.flagTimeout_regs (s : State) : (s.flagTimeout).regs = s.regs := rfl
@[simp] theorem State.flagTimeout_inFlight (s : State) : (s.flagTimeout).inFlight = s.inFlight := rfl
@[simp] theorem State.flagTimeout_env (s : State) : (s.flagTimeout).env = s.env := rfl
@[simp] theorem State.flagTimeout_window (s : State) : (s.flagTimeout).window = s.window := rfl
@[simp] theorem State.flagTimeout_host (s : State) : (s.flagTimeout).host = s.host := rfl
@[simp] theorem State.flagTimeout_replies (s : State) : (s.flagTimeout).replies = s.replies := rfl
@[simp] theorem State.flagTimeout_trace (s : State) : (s.flagTimeout).trace = s.trace := rfl
@[simp] theorem State.flagTimeout_draws (s : State) : (s.flagTimeout).draws = s.draws := rfl
@[simp] theorem State.flagTimeout_cfg (s : State) : (s.flagTimeout).cfg = s.cfg := rfl

/-! `State.flagDone` -/

@[simp] theorem State.flagDone_phase (s : State) : (s.flagDone).phase = s.phase := rfl
@[simp] theorem State.flagDone_sub (s : State) : (s.flagDone).sub = s.sub := rfl
@[simp] theorem State.flagDone_remaining (s : State) : (s.flagDone).remaining = s.remaining := rfl
@[simp] theorem State.flagDone_pollCnt (s : State) : (s.flagDone).pollCnt = s.pollCnt := rfl
@[simp] theorem State.flagDone_err (s : State) : (s.flagDone).err = s.err := rfl
@[simp] theorem State.flagDone_done (s : State) : (s.flagDone).done = true := rfl
@[simp] theorem State.flagDone_buf (s : State) : (s.flagDone).buf = s.buf := rfl
@[simp] theorem State.flagDone_regs (s : State) : (s.flagDone).regs = s.regs := rfl
@[simp] theorem State.flagDone_inFlight (s : State) : (s.flagDone).inFlight = s.inFlight := rfl
@[simp] theorem State.flagDone_env (s : State) : (s.flagDone).env = s.env := rfl
@[simp] theorem State.flagDone_window (s : State) : (s.flagDone).window = s.window := rfl
@[simp] theorem State.flagDone_host (s : State) : (s.flagDone).host = s.host := rfl
@[simp] theorem State.flagDone_replies (s : State) : (s.flagDone).replies = s.replies := rfl
@[simp] theorem State.flagDone_trace (s : State) : (s.flagDone).trace = s.trace := rfl
@[simp] theorem State.flagDone_draws (s : State) : (s.flagDone).draws = s.draws := rfl
@[simp] theorem State.flagDone_cfg (s : State) : (s.flagDone).cfg = s.cfg := rfl

/-! `State.reply` -/

@[simp] theorem State.reply_phase (a : Reply) (s : State) : (s.reply a).phase = s.phase := rfl
@[simp] theorem State.reply_sub (a : Reply) (s : State) : (s.reply a).sub = s.sub := rfl
@[simp] theorem State.reply_remaining (a : Reply) (s : State) : (s.reply a).remaining = s.remaining := rfl
@[simp] theorem State.reply_pollCnt (a : Reply) (s : State) : (s.reply a).pollCnt = s.pollCnt := rfl
@[simp] theorem State.reply_err (a : Reply) (s : State) : (s.reply a).err = s.err := rfl
@[simp] theorem State.reply_done (a : Reply) (s : State) : (s.reply a).done = s.done := rfl
@[simp] theorem State.reply_buf (a : Reply) (s : State) : (s.reply a).buf = s.buf := rfl
@[simp] theorem State.reply_regs (a : Reply) (s : State) : (s.reply a).regs = s.regs := rfl
@[simp] theorem State.reply_inFlight (a : Reply) (s : State) : (s.reply a).inFlight = s.inFlight := rfl
@[simp] theorem State.reply_env (a : Reply) (s : State) : (s.reply a).env = s.env := rfl
@[simp] theorem State.reply_window (a : Reply) (s : State) : (s.reply a).window = s.window := rfl
@[simp] theorem State.reply_host (a : Reply) (s : State) : (s.reply a).host = s.host := rfl
@[simp] theorem State.reply_replies (a : Reply) (s : State) : (s.reply a).replies = s.replies ++ [a] := rfl
@[simp] theorem State.reply_trace (a : Reply) (s : State) : (s.reply a).trace = s.trace := rfl
@[simp] theorem State.reply_draws (a : Reply) (s : State) : (s.reply a).draws = s.draws := rfl
@[simp] theorem State.reply_cfg (a : Reply) (s : State) : (s.reply a).cfg = s.cfg := rfl

/-! `State.forgetBuf` and `State.endLoad` -/

@[simp] theorem State.forgetBuf_phase (s : State) : s.forgetBuf.phase = s.phase := rfl
@[simp] theorem State.forgetBuf_sub (s : State) : s.forgetBuf.sub = s.sub := rfl
@[simp] theorem State.forgetBuf_remaining (s : State) : s.forgetBuf.remaining = s.remaining := rfl
@[simp] theorem State.forgetBuf_pollCnt (s : State) : s.forgetBuf.pollCnt = s.pollCnt := rfl
@[simp] theorem State.forgetBuf_err (s : State) : s.forgetBuf.err = s.err := rfl
@[simp] theorem State.forgetBuf_done (s : State) : s.forgetBuf.done = s.done := rfl
@[simp] theorem State.forgetBuf_buf (s : State) : s.forgetBuf.buf = [] := rfl
@[simp] theorem State.forgetBuf_regs (s : State) : s.forgetBuf.regs = s.regs := rfl
@[simp] theorem State.forgetBuf_inFlight (s : State) : s.forgetBuf.inFlight = s.inFlight := rfl
@[simp] theorem State.forgetBuf_env (s : State) : s.forgetBuf.env = s.env := rfl
@[simp] theorem State.forgetBuf_window (s : State) : s.forgetBuf.window = s.window := rfl
@[simp] theorem State.forgetBuf_host (s : State) : s.forgetBuf.host = s.host := rfl
@[simp] theorem State.forgetBuf_replies (s : State) : s.forgetBuf.replies = s.replies := rfl
@[simp] theorem State.forgetBuf_trace (s : State) : s.forgetBuf.trace = s.trace := rfl
@[simp] theorem State.forgetBuf_draws (s : State) : s.forgetBuf.draws = s.draws := rfl
@[simp] theorem State.forgetBuf_cfg (s : State) : s.forgetBuf.cfg = s.cfg := rfl

@[simp] theorem State.endLoad_phase (s : State) : s.endLoad.phase = s.phase := by
  unfold State.endLoad; split <;> rfl
@[simp] theorem State.endLoad_sub (s : State) : s.endLoad.sub = s.sub := by
  unfold State.endLoad; split <;> rfl
@[simp] theorem State.endLoad_remaining (s : State) : s.endLoad.remaining = s.remaining := by
  unfold State.endLoad; split <;> rfl
@[simp] theorem State.endLoad_pollCnt (s : State) : s.endLoad.pollCnt = s.pollCnt := by
  unfold State.endLoad; split <;> rfl
@[simp] theorem State.endLoad_err (s : State) : s.endLoad.err = s.err := by
  unfold State.endLoad; split <;> rfl
@[simp] theorem State.endLoad_done (s : State) : s.endLoad.done = true := rfl
@[simp] theorem State.endLoad_buf (s : State) :
    s.endLoad.buf = if s.err = .ok then s.buf else [] := by
  unfold State.endLoad; split <;> rfl
@[simp] theorem State.endLoad_regs (s : State) : s.endLoad.regs = s.regs := by
  unfold State.endLoad; split <;> rfl
@[simp] theorem State.endLoad_inFlight (s : State) : s.endLoad.inFlight = s.inFlight := by
  unfold State.endLoad; split <;> rfl
@[simp] theorem State.endLoad_env (s : State) : s.endLoad.env = s.env := by
  unfold State.endLoad; split <;> rfl
@[simp] theorem State.endLoad_window (s : State) : s.endLoad.window = s.window := by
  unfold State.endLoad; split <;> rfl
@[simp] theorem State.endLoad_host (s : State) : s.endLoad.host = s.host := by
  unfold State.endLoad; split <;> rfl
@[simp] theorem State.endLoad_replies (s : State) : s.endLoad.replies = s.replies := by
  unfold State.endLoad; split <;> rfl
@[simp] theorem State.endLoad_trace (s : State) : s.endLoad.trace = s.trace := by
  unfold State.endLoad; split <;> rfl
@[simp] theorem State.endLoad_draws (s : State) : s.endLoad.draws = s.draws := by
  unfold State.endLoad; split <;> rfl
@[simp] theorem State.endLoad_cfg (s : State) : s.endLoad.cfg = s.cfg := by
  unfold State.endLoad; split <;> rfl

/-- The end of a LOAD as one update (R142, R164). -/
theorem State.endLoad_eq (s : State) :
    s.endLoad = { s with done := true, buf := if s.err = .ok then s.buf else [] } := by
  unfold State.endLoad; split <;> rfl

/-! `delay` and `failLoad` -/

@[simp] theorem delay_phase (us : Nat) (s : State) : (delay us s).phase = s.phase := rfl
@[simp] theorem delay_sub (us : Nat) (s : State) : (delay us s).sub = s.sub := rfl
@[simp] theorem delay_remaining (us : Nat) (s : State) : (delay us s).remaining = s.remaining := rfl
@[simp] theorem delay_pollCnt (us : Nat) (s : State) : (delay us s).pollCnt = s.pollCnt := rfl
@[simp] theorem delay_err (us : Nat) (s : State) : (delay us s).err = s.err := rfl
@[simp] theorem delay_done (us : Nat) (s : State) : (delay us s).done = s.done := rfl
@[simp] theorem delay_buf (us : Nat) (s : State) : (delay us s).buf = s.buf := rfl
@[simp] theorem delay_regs (us : Nat) (s : State) : (delay us s).regs = s.regs := rfl
@[simp] theorem delay_inFlight (us : Nat) (s : State) : (delay us s).inFlight = s.inFlight := rfl
@[simp] theorem delay_env (us : Nat) (s : State) : (delay us s).env = s.env := rfl
@[simp] theorem delay_window (us : Nat) (s : State) : (delay us s).window = s.window := rfl
@[simp] theorem delay_host (us : Nat) (s : State) : (delay us s).host = s.host := rfl
@[simp] theorem delay_replies (us : Nat) (s : State) : (delay us s).replies = s.replies := rfl
@[simp] theorem delay_trace (us : Nat) (s : State) : (delay us s).trace = s.trace ++ [.d us] := rfl
@[simp] theorem delay_draws (us : Nat) (s : State) : (delay us s).draws = s.draws := rfl
@[simp] theorem delay_cfg (us : Nat) (s : State) : (delay us s).cfg = s.cfg := rfl

@[simp] theorem failLoad_phase (s : State) : (failLoad s).phase = .finDisable := rfl
@[simp] theorem failLoad_sub (s : State) : (failLoad s).sub = .poll := rfl
@[simp] theorem failLoad_remaining (s : State) : (failLoad s).remaining = s.remaining := rfl
@[simp] theorem failLoad_pollCnt (s : State) : (failLoad s).pollCnt = s.pollCnt := rfl
@[simp] theorem failLoad_err (s : State) : (failLoad s).err = .timeout := rfl
@[simp] theorem failLoad_done (s : State) : (failLoad s).done = s.done := rfl
@[simp] theorem failLoad_buf (s : State) : (failLoad s).buf = s.buf := rfl
@[simp] theorem failLoad_regs (s : State) : (failLoad s).regs = s.regs := rfl
@[simp] theorem failLoad_inFlight (s : State) : (failLoad s).inFlight = s.inFlight := rfl
@[simp] theorem failLoad_env (s : State) : (failLoad s).env = s.env := rfl
@[simp] theorem failLoad_window (s : State) : (failLoad s).window = s.window := rfl
@[simp] theorem failLoad_host (s : State) : (failLoad s).host = s.host := rfl
@[simp] theorem failLoad_replies (s : State) : (failLoad s).replies = s.replies := rfl
@[simp] theorem failLoad_trace (s : State) : (failLoad s).trace = s.trace := rfl
@[simp] theorem failLoad_draws (s : State) : (failLoad s).draws = s.draws := rfl
@[simp] theorem failLoad_cfg (s : State) : (failLoad s).cfg = s.cfg := rfl

/-! `State.latch` -/

@[simp] theorem State.latch_phase (r : Reg) (v : Word) (s : State) : (s.latch r v).phase = s.phase := by
  unfold State.latch; split <;> rfl
@[simp] theorem State.latch_sub (r : Reg) (v : Word) (s : State) : (s.latch r v).sub = s.sub := by
  unfold State.latch; split <;> rfl
@[simp] theorem State.latch_remaining (r : Reg) (v : Word) (s : State) : (s.latch r v).remaining = s.remaining := by
  unfold State.latch; split <;> rfl
@[simp] theorem State.latch_pollCnt (r : Reg) (v : Word) (s : State) : (s.latch r v).pollCnt = s.pollCnt := by
  unfold State.latch; split <;> rfl
@[simp] theorem State.latch_err (r : Reg) (v : Word) (s : State) : (s.latch r v).err = s.err := by
  unfold State.latch; split <;> rfl
@[simp] theorem State.latch_done (r : Reg) (v : Word) (s : State) : (s.latch r v).done = s.done := by
  unfold State.latch; split <;> rfl
@[simp] theorem State.latch_buf (r : Reg) (v : Word) (s : State) : (s.latch r v).buf = s.buf := by
  unfold State.latch; split <;> rfl
@[simp] theorem State.latch_regs (r : Reg) (v : Word) (s : State) : (s.latch r v).regs = s.regs := by
  unfold State.latch; split <;> rfl
@[simp] theorem State.latch_inFlight (r : Reg) (v : Word) (s : State) :
    (s.latch r v).inFlight = if r = .cmd then some v else s.inFlight := by
  unfold State.latch; split <;> rfl
@[simp] theorem State.latch_env (r : Reg) (v : Word) (s : State) : (s.latch r v).env = s.env := by
  unfold State.latch; split <;> rfl
@[simp] theorem State.latch_window (r : Reg) (v : Word) (s : State) : (s.latch r v).window = s.window := by
  unfold State.latch; split <;> rfl
@[simp] theorem State.latch_host (r : Reg) (v : Word) (s : State) : (s.latch r v).host = s.host := by
  unfold State.latch; split <;> rfl
@[simp] theorem State.latch_replies (r : Reg) (v : Word) (s : State) : (s.latch r v).replies = s.replies := by
  unfold State.latch; split <;> rfl
@[simp] theorem State.latch_trace (r : Reg) (v : Word) (s : State) : (s.latch r v).trace = s.trace := by
  unfold State.latch; split <;> rfl
@[simp] theorem State.latch_draws (r : Reg) (v : Word) (s : State) : (s.latch r v).draws = s.draws := by
  unfold State.latch; split <;> rfl
@[simp] theorem State.latch_cfg (r : Reg) (v : Word) (s : State) : (s.latch r v).cfg = s.cfg := by
  unfold State.latch; split <;> rfl

/-! Register cells -/

@[simp] theorem Regs.get_set_same (g : Regs) (r : Reg) (v : Word) : (g.set r v).get r = v := by cases r <;> rfl

theorem Regs.get_set_other (g : Regs) (r q : Reg) (v : Word) (h : q ≠ r) : (g.set r v).get q = g.get q := by
  cases r <;> cases q <;> first | rfl | exact absurd rfl h

end Sys2Proof.Machine
end

