-- ==== Sys2Proof/Laws/Mem.lean ====
section
/-! SUPPORT. Byte memory: a read after a write, and that a write keeps the canonical form. -/

namespace Sys2Proof.Machine

theorem Mem.get?_set_same (m : Mem) (i : Nat) (v : Byte) : (Mem.set m i v).get? i = some v := by
  induction m with
  | nil => simp [Mem.set, Mem.get?]
  | cons c m ih =>
    obtain ⟨a, b⟩ := c
    simp only [Mem.set]
    split
    · simp [Mem.get?]
    · split
      · simp [Mem.get?]
      · simp [Mem.get?, ih]
        omega

theorem Mem.get?_set_other (m : Mem) (i j : Nat) (v : Byte) (h : j ≠ i) :
    (Mem.set m i v).get? j = Mem.get? m j := by
  induction m with
  | nil => simp [Mem.set, Mem.get?, Ne.symm h]
  | cons c m ih =>
    obtain ⟨a, b⟩ := c
    simp only [Mem.set]
    split
    · simp [Mem.get?, Ne.symm h]
    · split
      · subst_vars
        simp [Mem.get?, Ne.symm h]
      · simp [Mem.get?, ih]

theorem Mem.rising_set (lo : Option Nat) (m : Mem) (i : Nat) (v : Byte) (h : Mem.rising lo m = true)
    (hi : ∀ a, lo = some a → a < i) : Mem.rising lo (Mem.set m i v) = true := by
  induction m generalizing lo with
  | nil => cases lo <;> simp_all [Mem.set, Mem.rising]
  | cons c m ih =>
    obtain ⟨a, b⟩ := c
    have hm : Mem.rising (some a) m = true := by cases lo <;> simp_all [Mem.rising]
    simp only [Mem.set]
    split
    · cases lo <;> simp_all [Mem.rising]
    · split
      · cases lo <;> simp_all [Mem.rising]
      · have := ih (some a) hm (by intro x hx; cases hx; omega)
        cases lo <;> simp_all [Mem.rising]

theorem Mem.below_cons (n a : Nat) (b : Byte) (m : Mem) :
    Mem.below n ((a, b) :: m) = (decide (a < n) && Mem.below n m) := rfl

theorem Mem.below_set (n : Nat) (m : Mem) (i : Nat) (v : Byte) (h : Mem.below n m = true) (hi : i < n) :
    Mem.below n (Mem.set m i v) = true := by
  induction m with
  | nil => simp [Mem.set, Mem.below, hi]
  | cons c m ih =>
    obtain ⟨a, b⟩ := c
    rw [Mem.below_cons, Bool.and_eq_true, decide_eq_true_eq] at h
    simp only [Mem.set]
    split
    · simp only [Mem.below_cons, Bool.and_eq_true, decide_eq_true_eq]
      exact ⟨hi, h⟩
    · split
      · simp only [Mem.below_cons, Bool.and_eq_true, decide_eq_true_eq]
        exact ⟨hi, h.2⟩
      · simp only [Mem.below_cons, Bool.and_eq_true, decide_eq_true_eq]
        exact ⟨h.1, ih h.2⟩

/-- Every write inside the buffer keeps the canonical form. -/
theorem Mem.wf_set (m : Mem) (i : Nat) (v : Byte) (h : m.wf = true) (hi : i < Config.eepromSize) :
    Mem.wf (Mem.set m i v) = true := by
  simp only [Mem.wf, Bool.and_eq_true] at h ⊢
  exact ⟨Mem.rising_set none m i v h.1 (by simp), Mem.below_set _ m i v h.2 hi⟩

theorem State.reset_buf_wf : State.reset.buf.wf = true := rfl

/-- In canonical form nothing is listed at or above the buffer's size. -/
theorem Mem.get?_below (n : Nat) (m : Mem) (h : Mem.below n m = true) (i : Nat) (hi : n ≤ i) : m.get? i = none := by
  induction m with
  | nil => rfl
  | cons c m ih =>
    obtain ⟨a, b⟩ := c
    rw [Mem.below_cons, Bool.and_eq_true, decide_eq_true_eq] at h
    simp only [Mem.get?]
    rw [if_neg (by omega), ih h.2]

/-! The buffer index. -/

/-- Where there is an index it is `256 - remaining` and lies in the buffer (R144). -/
theorem bufIndex_some (r : BitVec 9) (i : Nat) :
    bufIndex r = some i ↔ 1 ≤ r.toNat ∧ r.toNat ≤ 256 ∧ i = 256 - r.toNat := by
  unfold bufIndex Config.eepromSize
  split
  · rename_i h
    simp only [Option.some.injEq]
    omega
  · rename_i h
    simp only [reduceCtorEq, false_iff]
    omega

/-- A write into the register cells changes its own cell. -/
theorem regs_get_set (g : Regs) (r q : Reg) (v : Word) : (g.set r v).get q = if q = r then v else g.get q := by
  cases r <;> cases q <;> rfl

/-- A store at the next index fills one index more. -/
theorem filled_set {n : Nat} {m : Mem} (b : Byte) (h : filledBelow n m) : filledBelow (n + 1) (m.set n b) := by
  intro i hi
  by_cases h1 : i = n
  · subst h1; rw [Mem.get?_set_same]; rfl
  · rw [Mem.get?_set_other _ _ _ _ h1]; exact h i (by omega)

end Sys2Proof.Machine
end

