-- ==== Sys2Proof/Laws/Ops.lean ====
section
/-! SUPPORT. What each shared operation can do, said once: if it answers, then how. -/

namespace Sys2Proof.Machine

/-! Continuation. -/

theorem thenDo_next {o : Host.Outcome State Fault Refusal} {f : State → Host.Outcome State Fault Refusal} {t : State} :
    thenDo o f = .next t ↔ ∃ u, o = .next u ∧ f u = .next t := by
  cases o <;> simp [thenDo]

theorem thenDo_fault {o : Host.Outcome State Fault Refusal} {f : State → Host.Outcome State Fault Refusal} {x : Fault} :
    thenDo o f = .fault x ↔ o = .fault x ∨ ∃ u, o = .next u ∧ f u = .fault x := by
  cases o <;> simp [thenDo]

/-! Register access. -/

/-- The state after a write that the environment absorbed as `e`. -/
def written (r : Reg) (v : Word) (e : Env) (s : State) : State :=
  (((s.setEnv e).setReg r v).emit (.w (s.cfg.off r) v)).latch r v

/-- The state after a read that the environment answered with `v`, being `e` afterwards. -/
def received (r : Reg) (v : Word) (e : Env) (s : State) : State :=
  (((s.setEnv e).setReg r v).emit (.r (s.cfg.off r) v)).drawn

/-- A write answers next exactly where the window is mapped and the environment absorbs it. -/
theorem regWrite_next {r : Reg} {v : Word} {s t : State} :
    regWrite r v s = .next t ↔ s.window ≠ none ∧ ∃ e, s.env.absorb s.cfg r v = .ok e ∧ t = written r v e s := by
  unfold regWrite written
  cases hw : s.window with
  | none => simp
  | some b =>
    cases ha : s.env.absorb s.cfg r v with
    | error x => simp
    | ok e => simp [eq_comm]

/-- A write never faults. -/
theorem regWrite_not_fault (r : Reg) (v : Word) (s : State) (x : Fault) : regWrite r v s ≠ .fault x := by
  unfold regWrite
  split
  · simp
  · split <;> simp

/-- A read answers exactly where the window is mapped and the environment answers. -/
theorem regRead_ok {r : Reg} {s t : State} {v : Word} :
    regRead r s = .ok (v, t) ↔
      s.window ≠ none ∧ ∃ e, s.env.answer s.cfg s.draws r = .ok (v, e) ∧ t = received r v e s := by
  unfold regRead received
  cases hw : s.window with
  | none => simp
  | some b =>
    cases ha : s.env.answer s.cfg s.draws r with
    | error x => simp
    | ok p =>
      obtain ⟨v', e⟩ := p
      simp only [Except.ok.injEq, Prod.mk.injEq, ne_eq, reduceCtorEq, not_false_eq_true, true_and]
      constructor
      · rintro ⟨rfl, rfl⟩
        exact ⟨e, ⟨rfl, rfl⟩, rfl⟩
      · rintro ⟨e', ⟨rfl, rfl⟩, rfl⟩
        exact ⟨rfl, rfl⟩

/-- E0 absorbs every write and is unchanged (R60). -/
theorem oracle_absorb (c : Config) (r : Reg) (v : Word) (tape : List Word) :
    (Env.oracle tape).absorb c r v = .ok (.oracle tape) := rfl

/-- E0 answers from its tape first (R60). -/
theorem oracle_answer_cons (c : Config) (n : Nat) (r : Reg) (v : Word) (tape : List Word) :
    (Env.oracle (v :: tape)).answer c n r = .ok (v, .oracle tape) := rfl

/-! The poll. -/

/-- A poll read ends in the transfer or in the wait, by the awaited bit (R91). -/
theorem pollRead_next {p : Phase} {mask : Word} {s t : State} :
    pollRead p mask s = .next t ↔ s.window ≠ none ∧ ∃ v e, s.env.answer s.cfg s.draws s.cfg.offPoll = .ok (v, e) ∧
      t = (received s.cfg.offPoll v e s).goto p (if ready mask v then .xfer else .pollWait) := by
  unfold pollRead
  cases hr : regRead s.cfg.offPoll s with
  | error x =>
    simp only [reduceCtorEq, false_iff, not_and, not_exists]
    intro hw v e ha
    have : regRead s.cfg.offPoll s = .ok (v, received s.cfg.offPoll v e s) := regRead_ok.2 ⟨hw, e, ha, rfl⟩
    simp [hr] at this
  | ok q =>
    obtain ⟨v, u⟩ := q
    obtain ⟨hw, e, ha, rfl⟩ := regRead_ok.1 hr
    simp only [Host.Outcome.next.injEq]
    constructor
    · rintro rfl
      exact ⟨hw, v, e, ha, rfl⟩
    · rintro ⟨_, v', e', ha', rfl⟩
      rw [ha] at ha'
      cases ha'
      rfl

theorem pollRead_not_fault (p : Phase) (mask : Word) (s : State) (x : Fault) : pollRead p mask s ≠ .fault x := by
  unfold pollRead
  split <;> simp

/-- A wait counts one not-ready read; at the bound it takes the fail transition, else it polls again (R91, R142). -/
theorem pollWait_cases (p : Phase) (s : State) :
    (s.pollCnt + 1#17 = 100000#17 ∧
      pollWait p s = failLoad ((delay 1 s).setPollCnt (s.pollCnt + 1#17))) ∨
    (s.pollCnt + 1#17 ≠ 100000#17 ∧
      pollWait p s = ((delay 1 s).setPollCnt (s.pollCnt + 1#17)).goto p .poll) := by
  by_cases h : s.pollCnt + 1#17 = 100000#17
  · left
    refine ⟨h, ?_⟩
    simp [pollWait, pollExhausted, Config.pollMax, Config.pollStepUs, h]
  · right
    refine ⟨h, ?_⟩
    simp [pollWait, pollExhausted, Config.pollMax, Config.pollStepUs, h]

/-- One small step of a SEND (R99). -/
theorem sendPhase_next {p : Phase} {w : Word} {f : State → State} {s t : State} (h : sendPhase p w f s = .next t) :
    (s.sub = .poll ∧ pollRead p s.cfg.txReady s = .next t) ∨ (s.sub = .pollWait ∧ t = pollWait p s) ∨
    (s.sub = .xfer ∧ ∃ u, regWrite .cmd w s = .next u ∧ t = u.goto p .settle) ∨
    (s.sub = .settle ∧ t = f (delay 1 s)) := by
  unfold sendPhase at h
  cases hs : s.sub <;> simp only [hs] at h
  · exact .inl ⟨rfl, h⟩
  · exact .inr (.inl ⟨rfl, by simpa using h.symm⟩)
  · obtain ⟨u, hu, ht⟩ := thenDo_next.1 h
    exact .inr (.inr (.inl ⟨rfl, u, hu, by simpa using ht.symm⟩))
  · exact .inr (.inr (.inr ⟨rfl, by simpa [Config.writeSettleUs] using h.symm⟩))

theorem sendPhase_not_fault (p : Phase) (w : Word) (f : State → State) (s : State) (x : Fault) :
    sendPhase p w f s ≠ .fault x := by
  unfold sendPhase
  split
  · exact pollRead_not_fault _ _ _ _
  · simp
  · rw [ne_eq, thenDo_fault]
    rintro (h | ⟨u, _, h⟩)
    · exact regWrite_not_fault _ _ _ _ h
    · simp at h
  · simp

/-- One small step of RECV in phase `RCV` (R100, R141). -/
theorem recvPhase_next {s t : State} (h : recvPhase s = .next t) :
    (s.sub = .poll ∧ pollRead .rcv s.cfg.rxReady s = .next t) ∨ (s.sub = .pollWait ∧ t = pollWait .rcv s) ∨
    (s.sub = .xfer ∧ ∃ i v u, bufIndex s.remaining = some i ∧ regRead .rxdata s = .ok (v, u) ∧ t = storeByte i v u) := by
  unfold recvPhase at h
  cases hs : s.sub <;> simp only [hs] at h
  · exact .inl ⟨rfl, h⟩
  · exact .inr (.inl ⟨rfl, by simpa using h.symm⟩)
  · right; right
    refine ⟨rfl, ?_⟩
    split at h
    · simp at h
    · rename_i i hi
      split at h
      · simp at h
      · rename_i v u hr
        exact ⟨i, v, u, hi, hr, by simpa using h.symm⟩
  · simp at h

/-- What the transfer of `RCV` does with the word, as one update (R141). -/
theorem storeByte_eq (i : Nat) (v : Word) (s : State) : storeByte i v s = { s with
    phase := if s.remaining = 1#9 then .finDisable else .req, sub := .poll, pollCnt := 0#17,
    remaining := s.remaining - 1#9, buf := s.buf.set i (lowByte v) } := by
  have h : s.remaining - 1#9 = 0#9 ↔ s.remaining = 1#9 := by constructor <;> intro hh <;> bv_omega
  unfold storeByte
  simp only [State.setPollCnt_remaining, State.setRemaining_remaining, h]
  by_cases hr : s.remaining = 1#9
  · simp only [if_pos hr]
    rfl
  · simp only [if_neg hr]
    rfl

/-! The controller and the start. -/

theorem takeAddress_next {a : BitVec 7} {d : Dir} {s t : State} :
    takeAddress a d s = .next t ↔ ∃ e, s.env.addressPhase a d = .ok e ∧ t = (s.setEnv e).setInFlight none := by
  unfold takeAddress
  cases s.env.addressPhase a d <;> simp [eq_comm]

theorem takeData_next {b : Byte} {stop : Bool} {s t : State} :
    takeData b stop s = .next t ↔ ∃ e, s.env.dataPhase b stop = .ok e ∧ t = (s.setEnv e).setInFlight none := by
  unfold takeData
  cases s.env.dataPhase b stop <;> simp [eq_comm]

/-- Waiting for the host: a `load_start` begins a LOAD, otherwise nothing changes (R128, R143). -/
theorem awaitStart_next {s t : State} (h : awaitStart s = .next t) :
    t = s ∨ ∃ rest, s.host = .loadStart :: rest ∧ s.window ≠ none ∧
      t = (State.flagsAtStart { s with host := rest }).forgetBuf.goto .initDisable .poll := by
  unfold awaitStart at h
  split at h
  · rename_i rest hr
    right
    unfold beginLoad at h
    split at h
    · simp at h
    · rename_i b hb
      exact ⟨rest, hr, by simpa using by simp [show s.window = some b from hb], by simpa using h.symm⟩
  · left
    simpa using h.symm

/-! Fetching. -/

/-- The phase's own instruction is what its code decodes to (R13). -/
theorem decode_phase (c : Config) (k : Context) (p : Phase) : decode c k (.phase p.code) = .ok p.instr := by
  cases p <;> rfl

/-- With no command in flight the block's phase is fetched (R21). -/
theorem fetch_phase (s : State) (h : s.inFlight = none) : fetch s = .ok s.phase.instr := by
  unfold fetch
  rw [h]
  exact decode_phase ..

/-- A word that its site emits decodes to that site's instruction (R76). -/
theorem fetch_site (s : State) (x : Site) (hx : siteOf s.phase s.remaining = some x)
    (h : s.inFlight = some (siteWord s.cfg x)) : fetch s = .ok x.instr := by
  unfold fetch
  simp [h, decode, decodeCommand, State.context, hx]

/-! The host's turn. -/

/-- While a command is in flight, or with no move waiting, the host does nothing. -/
theorem hostTurn_flight (s : State) (w : Word) (h : s.inFlight = some w) : hostTurn s = .pass s := by
  simp [hostTurn, h]

theorem hostTurn_silent (s : State) (h : s.host = []) : hostTurn s = .pass s := by
  unfold hostTurn
  split <;> simp_all

/-- A step with no command in flight and the host silent runs the phase (R127). -/
theorem step_phase (s : State) (hf : s.inFlight = none) (hh : s.host = []) : step s = exec s.phase.instr s := by
  unfold step
  rw [hostTurn_silent s hh]
  simp [fetch_phase s hf]

/-- A step with an emitted word in flight runs its instruction (R110). -/
theorem step_site (s : State) (x : Site) (hx : siteOf s.phase s.remaining = some x)
    (h : s.inFlight = some (siteWord s.cfg x)) : step s = exec x.instr s := by
  unfold step
  rw [hostTurn_flight s _ h]
  simp [fetch_site s x hx h]

/-! The configuration and the trace. -/

/-- Distinct registers lie at distinct offsets (R7). -/
theorem off_inj {c : Config} (h : c.wf = true) {r q : Reg} : c.off r = c.off q ↔ r = q := by
  have hn : c.offsets.Nodup := by
    simp only [Config.wf, Config.offsetsWf, Bool.and_eq_true, decide_eq_true_eq] at h
    exact h.1.1.1.1.1
  have hm : c.offsets = [Reg.cmd, .rxdata, .ctrl, .ien, .isr, .status, .txlvl, .rxlvl, .scllow, .sclhigh,
    .sdahold].map c.off := rfl
  rw [hm] at hn
  exact ⟨fun e => List.inj_on_of_nodup_map hn (by cases r <;> decide) (by cases q <;> decide) e, fun e => by rw [e]⟩

/-- A write elsewhere does not change what was last written at an offset. -/
theorem lastWrite_other (off : Nat) (tr : List Event) (o : Nat) (v : Word) (h : o ≠ off) :
    lastWrite off (tr ++ [.w o v]) = lastWrite off tr := by
  simp [lastWrite, List.filterMap_append, h]

end Sys2Proof.Machine
end

