-- ==== Sys2Proof/Laws/PerInstr.lean ====
section
/-! SUPPORT. Per instruction: its code is well formed under the constraints of R7, a command word of format A or D
(R71, R72) or a phase code (R13). -/

namespace Sys2Proof.Laws.EncodesWellFormed

/-- A code that is a word of format A or D, or a phase code. -/
def codeWf (c : Config) : Code → Prop
  | .command w => commandWf c w = true
  | .phase p => ∃ q : Phase, q.code = p

/-- The family's statement. -/
def Statement (i : Instr) : Prop := ∀ c : Config, c.masksWf = true → codeWf c (encode c i)

/-- A flag mask has no bit in [7:0]. -/
theorem flagMask_high (m : Word) (h : flagMask m = true) : m &&& 0xFFFFFF00#32 = m := by
  have h0 : m &&& 0xFF#32 = 0#32 := by
    simp only [flagMask, Bool.and_eq_true, beq_iff_eq] at h
    exact h.2
  have : m &&& 0xFFFFFF00#32 = m &&& ~~~0xFF#32 := by congr 1
  rw [this]
  ext i hi
  have hb := congrArg (fun x => x.getLsbD i) h0
  simp only [BitVec.getLsbD_and, BitVec.getLsbD_zero] at hb
  simp only [BitVec.getElem_and, BitVec.getElem_not]
  simp only [BitVec.getLsbD_eq_getElem hi] at hb
  cases hm : m[i] <;> simp_all

/-- The payload of a format A or D word has no bit outside [7:0]. -/
theorem payload_high (b : Byte) : b.setWidth 32 &&& 0xFFFFFF00#32 = 0#32 := by
  have : ∀ b : Byte, b.setWidth 32 &&& 0xFFFFFF00#32 = 0#32 := by decide
  exact this b

theorem high_flag_payload (m : Word) (b : Byte) (h : m &&& 0xFFFFFF00#32 = m) :
    (m ||| b.setWidth 32) &&& 0xFFFFFF00#32 = m := by
  rw [BitVec.and_comm, BitVec.and_or_distrib_left, BitVec.and_comm _ m, BitVec.and_comm _ (b.setWidth 32), h, payload_high]
  simp

theorem masks_high (c : Config) (h : c.masksWf = true) :
    c.cmdStart &&& 0xFFFFFF00#32 = c.cmdStart ∧ c.cmdRstart &&& 0xFFFFFF00#32 = c.cmdRstart ∧
      c.cmdStop &&& 0xFFFFFF00#32 = c.cmdStop := by
  simp only [Config.masksWf, Bool.and_eq_true] at h
  exact ⟨flagMask_high _ h.1.1.1.1, flagMask_high _ h.1.1.1.2, flagMask_high _ h.1.1.2⟩

theorem start_wf (c : Config) (h : c.masksWf = true) (a : BitVec 7) (d : Dir) :
    commandWf c (addressWord c c.cmdStart a d) = true := by
  simp [commandWf, addressWord, high_flag_payload _ (a ++ c.dirBit d) (masks_high c h).1]

theorem rstart_wf (c : Config) (h : c.masksWf = true) (a : BitVec 7) (d : Dir) :
    commandWf c (addressWord c c.cmdRstart a d) = true := by
  simp [commandWf, addressWord, high_flag_payload _ (a ++ c.dirBit d) (masks_high c h).2.1]

theorem data_wf (c : Config) (b : Byte) : commandWf c (dataWord 0#32 b) = true := by
  simp [commandWf, dataWord, payload_high]

theorem dataStop_wf (c : Config) (h : c.masksWf = true) (b : Byte) : commandWf c (dataWord c.cmdStop b) = true := by
  simp [commandWf, dataWord, high_flag_payload _ b (masks_high c h).2.2]

theorem start (a : BitVec 7) (d : Dir) : Statement (.start a d) := fun c h => start_wf c h a d
theorem rstart (a : BitVec 7) (d : Dir) : Statement (.rstart a d) := fun c h => rstart_wf c h a d
theorem data (b : Byte) : Statement (.data b) := fun c _ => data_wf c b
theorem dataStop (b : Byte) : Statement (.dataStop b) := fun c h => dataStop_wf c h b
theorem wSelW : Statement .wSelW := fun c h => start_wf c h _ _
theorem wOffset : Statement .wOffset := fun c _ => data_wf c _
theorem wSelR : Statement .wSelR := fun c h => rstart_wf c h _ _
theorem wCont : Statement .wCont := fun c _ => data_wf c _
theorem wLast : Statement .wLast := fun c h => dataStop_wf c h _
theorem idle : Statement .idle := fun _ _ => ⟨.idle, rfl⟩
theorem initDisable : Statement .initDisable := fun _ _ => ⟨.initDisable, rfl⟩
theorem initClklow : Statement .initClklow := fun _ _ => ⟨.initClklow, rfl⟩
theorem initClkhigh : Statement .initClkhigh := fun _ _ => ⟨.initClkhigh, rfl⟩
theorem initHold : Statement .initHold := fun _ _ => ⟨.initHold, rfl⟩
theorem initAck : Statement .initAck := fun _ _ => ⟨.initAck, rfl⟩
theorem initEnable : Statement .initEnable := fun _ _ => ⟨.initEnable, rfl⟩
theorem initSettle : Statement .initSettle := fun _ _ => ⟨.initSettle, rfl⟩
theorem preAck : Statement .preAck := fun _ _ => ⟨.preAck, rfl⟩
theorem selW : Statement .selW := fun _ _ => ⟨.selW, rfl⟩
theorem offset : Statement .offset := fun _ _ => ⟨.offset, rfl⟩
theorem selR : Statement .selR := fun _ _ => ⟨.selR, rfl⟩
theorem req : Statement .req := fun _ _ => ⟨.req, rfl⟩
theorem rcv : Statement .rcv := fun _ _ => ⟨.rcv, rfl⟩
theorem finDisable : Statement .finDisable := fun _ _ => ⟨.finDisable, rfl⟩
theorem done : Statement .done := fun _ _ => ⟨.done, rfl⟩

end Sys2Proof.Laws.EncodesWellFormed
end

