-- ==== Sys2Proof/Laws/Run.lean ====
section
/-! SUPPORT. Several steps: one step first, and a run cut in two. -/

namespace Sys2Proof.Machine

theorem runSteps_zero (s : State) : runSteps 0 s = .next s := rfl

theorem runSteps_succ (n : Nat) (s : State) : runSteps (n + 1) s = thenDo (step s) (runSteps n) := rfl

theorem runSteps_add (m n : Nat) (s : State) : runSteps (m + n) s = thenDo (runSteps m s) (runSteps n) := by
  induction m generalizing s with
  | zero => simp [runSteps_zero, thenDo]
  | succ m ih =>
    rw [Nat.succ_add, runSteps_succ, runSteps_succ]
    cases h : step s <;> simp [thenDo, ih]

/-- A step that answers next is a run of one. -/
theorem runSteps_one (s : State) : runSteps 1 s = step s := by
  rw [runSteps_succ]
  cases step s <;> rfl

/-- One step of the host's run, where the step answers next; and where it stops. -/
theorem core_run_next (M : Host.Core) (n : Nat) (s s' : M.State) (h : M.step s = .next s') :
    M.run (n + 1) s = M.run n s' := by
  simp [Host.Core.run, h]

theorem core_run_fault (M : Host.Core) (n : Nat) (s : M.State) (x : M.Fault) (h : M.step s = .fault x) :
    M.run (n + 1) s = .fault x := by
  simp [Host.Core.run, h]

theorem core_run_refused (M : Host.Core) (n : Nat) (s : M.State) (x : M.Refusal) (h : M.step s = .refused x) :
    M.run (n + 1) s = .refused x := by
  simp [Host.Core.run, h]

/-- A run of the host's machine is a run of these steps. -/
theorem core_run (n : Nat) (s : State) : Host.Core.run Sys2Proof.core n s = runSteps n s := by
  induction n generalizing s with
  | zero => rfl
  | succ n ih =>
    rw [runSteps_succ]
    cases h : step s with
    | next t => exact (core_run_next Sys2Proof.core n s t h).trans (ih t)
    | fault x => exact core_run_fault Sys2Proof.core n s x h
    | refused x => exact core_run_refused Sys2Proof.core n s x h

end Sys2Proof.Machine
end

