-- ==== Sys2Proof/Laws/Step.lean ====
section
/-! SUPPORT. What a step can do, said once: the controller's turn, the block's turn, or a move of the host. -/

namespace Sys2Proof.Machine

/-- The nine command constructors. -/
def isCommand : Instr → Bool
  | .start _ _ | .rstart _ _ | .data _ | .dataStop _ | .wSelW | .wOffset | .wSelR | .wCont | .wLast => true
  | .idle | .initDisable | .initClklow | .initClkhigh | .initHold | .initAck | .initEnable | .initSettle | .preAck
  | .selW | .offset | .selR | .req | .rcv | .finDisable | .done => false

theorem decodeForm_isCommand {c : Config} {held : Bool} {w : Word} {i : Instr} (h : decodeForm c held w = .ok i) :
    isCommand i = true := by
  unfold decodeForm at h
  dsimp only at h
  repeat' split at h
  all_goals first | (cases h; rfl) | cases h

theorem decodeCommand_isCommand {c : Config} {k : Context} {w : Word} {i : Instr}
    (h : decodeCommand c k w = .ok i) : isCommand i = true := by
  unfold decodeCommand at h
  split at h
  · rename_i x _
    split at h
    · cases h
      cases x <;> rfl
    · exact decodeForm_isCommand h
  · exact decodeForm_isCommand h

/-- A command changes the environment and the command in flight, and nothing else (R110). -/
theorem exec_command_next {i : Instr} {s t : State} (hi : isCommand i = true) (h : exec i s = .next t) :
    ∃ e, t = (s.setEnv e).setInFlight none := by
  cases i <;> first
    | exact Bool.noConfusion hi
    | (obtain ⟨e, _, rfl⟩ := takeAddress_next.1 h; exact ⟨e, rfl⟩)
    | (obtain ⟨e, _, rfl⟩ := takeData_next.1 h; exact ⟨e, rfl⟩)

theorem exec_command_not_fault {i : Instr} (s : State) (hi : isCommand i = true) (x : Fault) :
    exec i s ≠ .fault x := by
  have ha : ∀ a d, takeAddress a d s ≠ .fault x := by intro a d; unfold takeAddress; split <;> simp
  have hd : ∀ b st, takeData b st s ≠ .fault x := by intro b st; unfold takeData; split <;> simp
  cases i <;> first
    | exact Bool.noConfusion hi
    | exact ha _ _
    | exact hd _ _

/-- A host move after which the machine's own step follows: nothing while a LOAD runs, or an accepted `load_start`, which
stays for the phase. -/
theorem hostDoes_pass {m : HostMove} {s u : State} (h : hostDoes m s = .pass u) :
    (m = .quiet ∧ s.phase.busy = true ∧ u = s) ∨ (m = .loadStart ∧ s.phase.busy = false ∧ u = { s with host := .loadStart :: s.host }) := by
  cases m <;> simp only [hostDoes] at h
  case quiet =>
    split at h <;> cases h
    exact .inl ⟨rfl, by assumption, rfl⟩
  case loadStart =>
    split at h
    · cases h
    · rename_i hb
      cases h
      exact .inr ⟨rfl, by simpa using hb, rfl⟩
  all_goals repeat' split at h
  all_goals cases h

/-- A host move that is the whole step (R68, R150, R170, R185). -/
theorem hostDoes_took {m : HostMove} {s u : State} (h : hostDoes m s = .took u) :
    (∃ base, m = .attach base ∧ s.window = none ∧ base % 4 = 0 ∧ u = { s with window := some base }) ∨
    (m = .detach ∧ s.phase.busy = false ∧ u = { s with window := none }) ∨ (∃ a, u = s.reply a) ∨
    (m = .reset ∧ u = resetEvent s) ∨ (m = .quiet ∧ s.phase.busy = false ∧ u = s) := by
  cases m <;> simp only [hostDoes] at h
  case quiet =>
    split at h <;> cases h
    exact .inr (.inr (.inr (.inr ⟨rfl, by simpa using (by assumption : ¬s.phase.busy = true), rfl⟩)))
  case loadStart =>
    split at h <;> cases h
  case attach base =>
    split at h
    · cases h
    · rename_i hw
      split at h
      · cases h
      · cases h
        exact .inl ⟨base, rfl, by simpa using hw, by omega, rfl⟩
  case detach =>
    split at h
    · cases h
    · split at h
      · cases h
      · rename_i hb
        cases h
        exact .inr (.inl ⟨rfl, by simpa using hb, rfl⟩)
  case readDone => cases h; exact .inr (.inr (.inl ⟨_, rfl⟩))
  case readErr =>
    split at h <;> cases h
    exact .inr (.inr (.inl ⟨_, rfl⟩))
  case macAddress =>
    split at h <;> cases h
    exact .inr (.inr (.inl ⟨_, rfl⟩))
  case assetTag out cap =>
    split at h <;> cases h
    exact .inr (.inr (.inl ⟨_, rfl⟩))
  case reset => cases h; exact .inr (.inr (.inr (.inl ⟨rfl, rfl⟩)))

/-- What a step can do: run the command in flight, run the phase (the host's list as it is, or shortened by a quiet
move while a LOAD runs), or a move of the host. -/
theorem step_next {s t : State} (h : step s = .next t) :
    (∃ w i, s.inFlight = some w ∧ decodeCommand s.cfg s.context w = .ok i ∧ exec i s = .next t) ∨
    (s.inFlight = none ∧ ∃ hs, (hs = s.host ∨ (s.phase.busy = true ∧ s.host = .quiet :: hs)) ∧
      exec s.phase.instr { s with host := hs } = .next t) ∨
    (s.inFlight = none ∧ ∃ m rest, s.host = m :: rest ∧ hostDoes m { s with host := rest } = .took t) := by
  unfold step at h
  by_cases hf : s.inFlight = none
  · right
    cases hh : s.host with
    | nil =>
      left
      rw [hostTurn_silent s hh] at h
      simp only [fetch_phase s hf] at h
      exact ⟨hf, [], .inl rfl, by rw [← hh]; exact h⟩
    | cons m rest =>
      have e : hostTurn s = hostDoes m { s with host := rest } := by simp only [hostTurn, hf, hh]
      rw [e] at h
      split at h
      · cases h
      · rename_i u hu
        cases h
        exact .inr ⟨hf, m, rest, rfl, hu⟩
      · rename_i u hu
        left
        refine ⟨hf, u.host, ?_⟩
        rcases hostDoes_pass hu with ⟨rfl, hb, rfl⟩ | ⟨rfl, _, rfl⟩
        · rw [fetch_phase _ (by exact hf)] at h
          exact ⟨.inr ⟨hb, rfl⟩, h⟩
        · rw [fetch_phase _ (by exact hf)] at h
          exact ⟨.inl rfl, h⟩
  · left
    obtain ⟨w, hw⟩ := Option.ne_none_iff_exists'.1 hf
    rw [hostTurn_flight s w hw] at h
    simp only [fetch, hw, decode] at h
    split at h
    · rename_i i hi
      exact ⟨w, i, hw, hi, h⟩
    · cases h

/-- A single write and the move after it. -/
theorem write_then_next {r : Reg} {v : Word} {f : State → State} {s t : State}
    (h : thenDo (regWrite r v s) (fun u => .next (f u)) = .next t) :
    s.window ≠ none ∧ ∃ e, s.env.absorb s.cfg r v = .ok e ∧ t = f (written r v e s) := by
  obtain ⟨u, hu, ht⟩ := thenDo_next.1 h
  obtain ⟨hw, e, he, rfl⟩ := regWrite_next.1 hu
  exact ⟨hw, e, he, by simpa using ht.symm⟩

/-- The phases of one register write: register, value and next phase (R129 to R134, R136, R142). -/
def writeRows (c : Config) : List (Phase × Reg × Word × Phase) :=
  [(.initDisable, .ctrl, 0#32, .initClklow), (.initClklow, .scllow, 500#32, .initClkhigh),
    (.initClkhigh, .sclhigh, 500#32, .initHold), (.initHold, .sdahold, 30#32, .initAck),
    (.initAck, .isr, 0xFFFFFFFF#32, .initEnable), (.initEnable, .ctrl, c.ctrlEnable, .initSettle),
    (.preAck, .isr, 0xFFFFFFFF#32, .selW), (.finDisable, .ctrl, 0#32, .done)]

/-- The phases that follow a sending phase (R137 to R140). -/
def settleRows : List (Phase × Phase) := [(.selW, .offset), (.offset, .selR), (.selR, .req), (.req, .rcv)]

/-- What a phase step can do, row by row of the transition table (R127). -/
inductive PhaseStep (s t : State) : Prop
  /-- `IDLE` and `DONE` without a `load_start`. -/
  | waits (hp : s.phase = .idle ∨ s.phase = .done) (ht : t = s)
  /-- `IDLE` and `DONE` with one. -/
  | begins (hp : s.phase = .idle ∨ s.phase = .done) (rest : List HostMove) (hh : s.host = .loadStart :: rest)
      (hw : s.window ≠ none)
      (ht : t = { s with
        host := rest, done := false, err := .ok, buf := [], phase := .initDisable, sub := .poll })
  /-- A phase of one register write. -/
  | writes (r : Reg) (v : Word) (q : Phase) (e : Env) (hr : (s.phase, r, v, q) ∈ writeRows s.cfg) (hw : s.window ≠ none)
      (he : s.env.absorb s.cfg r v = .ok e)
      (ht : t = { s with
        phase := q, sub := .poll, pollCnt := if q = .selW then 0#17 else s.pollCnt,
        done := decide (q = .done) || s.done, buf := if q = .done ∧ s.err ≠ .ok then [] else s.buf, env := e,
        regs := s.regs.set r v, trace := s.trace ++ [.w (s.cfg.off r) v] })
  /-- The enable-settle delay. -/
  | settles (hp : s.phase = .initSettle)
      (ht : t = { s with phase := .preAck, sub := .poll, trace := s.trace ++ [.d 10] })
  /-- A poll read. -/
  | polls (hp : s.phase ∈ pollPhases) (hs : s.sub = .poll) (hw : s.window ≠ none) (v : Word) (e : Env)
      (he : s.env.answer s.cfg s.draws s.cfg.offPoll = .ok (v, e))
      (ht : t = { s with
        sub := if ready (awaited s.cfg s.phase) v then .xfer else .pollWait, env := e,
        regs := s.regs.set s.cfg.offPoll v, trace := s.trace ++ [.r (s.cfg.off s.cfg.offPoll) v],
        draws := s.draws + 1 })
  /-- The fail transition. -/
  | fails (hp : s.phase ∈ pollPhases) (hs : s.sub = .pollWait) (hc : s.pollCnt + 1#17 = 100000#17)
      (ht : t = { s with
        phase := .finDisable, sub := .poll, err := .timeout, pollCnt := 100000#17, trace := s.trace ++ [.d 1] })
  /-- A wait before the next read of a poll. -/
  | counts (hp : s.phase ∈ pollPhases) (hs : s.sub = .pollWait) (hc : s.pollCnt + 1#17 ≠ 100000#17)
      (ht : t = { s with sub := .poll, pollCnt := s.pollCnt + 1#17, trace := s.trace ++ [.d 1] })
  /-- A command write. -/
  | sends (hs : s.sub = .xfer) (hw : s.window ≠ none) (x : Site) (e : Env) (hx : siteOf s.phase s.remaining = some x)
      (he : s.env.absorb s.cfg .cmd (siteWord s.cfg x) = .ok e)
      (ht : t = { s with
        sub := .settle, env := e, inFlight := some (siteWord s.cfg x), regs := { s.regs with cmd := siteWord s.cfg x },
        trace := s.trace ++ [.w s.cfg.offCmd (siteWord s.cfg x)] })
  /-- The write-settle delay. -/
  | moves (hs : s.sub = .settle) (q : Phase) (hq : (s.phase, q) ∈ settleRows)
      (ht : t = { s with
        phase := q, sub := .poll, pollCnt := 0#17, remaining := if q = .req then 256#9 else s.remaining,
        trace := s.trace ++ [.d 1] })
  /-- The transfer of `RCV`. -/
  | stores (hp : s.phase = .rcv) (hs : s.sub = .xfer) (hw : s.window ≠ none) (h1 : 1 ≤ s.remaining.toNat)
      (h2 : s.remaining.toNat ≤ 256) (v : Word) (e : Env) (he : s.env.answer s.cfg s.draws .rxdata = .ok (v, e))
      (ht : t = { s with
        phase := if s.remaining = 1#9 then .finDisable else .req, sub := .poll, pollCnt := 0#17,
        remaining := s.remaining - 1#9, buf := s.buf.set (256 - s.remaining.toNat) (lowByte v), env := e,
        regs := { s.regs with rxdata := v }, trace := s.trace ++ [.r s.cfg.offRxdata v], draws := s.draws + 1 })

theorem wait_step {s t : State} (hp : s.phase = .idle ∨ s.phase = .done) (h : awaitStart s = .next t) :
    PhaseStep s t := by
  rcases awaitStart_next h with rfl | ⟨rest, h1, h2, rfl⟩
  · exact .waits hp rfl
  · exact .begins hp rest h1 h2 rfl

theorem poll_step {s t : State} (hp : s.phase ∈ pollPhases) (hs : s.sub = .poll)
    (h : pollRead s.phase (awaited s.cfg s.phase) s = .next t) : PhaseStep s t := by
  obtain ⟨hw, v, e, he, rfl⟩ := pollRead_next.1 h
  exact .polls hp hs hw v e he rfl

theorem wait_poll_step {s : State} (hp : s.phase ∈ pollPhases) (hs : s.sub = .pollWait) :
    PhaseStep s (pollWait s.phase s) := by
  rcases pollWait_cases s.phase s with ⟨hc, he⟩ | ⟨hc, he⟩ <;> rw [he]
  · exact .fails hp hs hc (by rw [hc]; rfl)
  · exact .counts hp hs hc rfl

/-- A step of a sending phase that emits at the site `x` and goes on with `f`. -/
theorem send_step {s t : State} {x : Site} {f : State → State} (hp : s.phase ∈ sendPhases)
    (hx : siteOf s.phase s.remaining = some x) (h : sendPhase s.phase (siteWord s.cfg x) f s = .next t)
    (hf : s.sub = .settle → PhaseStep s (f (delay 1 s))) : PhaseStep s t := by
  have hpoll : s.phase ∈ pollPhases := List.mem_append_left [Phase.rcv] hp
  have ha : awaited s.cfg s.phase = s.cfg.txReady := if_neg (by intro e; rw [e] at hp; revert hp; decide)
  rcases sendPhase_next h with ⟨h1, h2⟩ | ⟨h1, rfl⟩ | ⟨h1, u, hu, rfl⟩ | ⟨h1, rfl⟩
  · exact poll_step hpoll h1 (by rw [ha]; exact h2)
  · exact wait_poll_step hpoll h1
  · obtain ⟨hw, e, he, rfl⟩ := regWrite_next.1 hu
    exact .sends h1 hw x e hx he rfl
  · exact hf h1

theorem recv_step {s t : State} (hp : s.phase = .rcv) (h : recvPhase s = .next t) : PhaseStep s t := by
  have hpoll : s.phase ∈ pollPhases := by rw [hp]; decide
  have ha : awaited s.cfg s.phase = s.cfg.rxReady := if_pos hp
  rcases recvPhase_next h with ⟨h1, h2⟩ | ⟨h1, rfl⟩ | ⟨h1, i, v, u, hi, hr, rfl⟩
  · exact poll_step hpoll h1 (by rw [ha, hp]; exact h2)
  · rw [← hp]
    exact wait_poll_step hpoll h1
  · obtain ⟨hw, e, he, rfl⟩ := regRead_ok.1 hr
    obtain ⟨hlo, hhi, rfl⟩ := (bufIndex_some _ _).1 hi
    refine .stores hp h1 hw hlo hhi v e he ?_
    rw [storeByte_eq]
    rfl

/-- A phase of one register write `r <- v` that goes on with `f`. -/
theorem write_step {s t : State} {r : Reg} {v : Word} {f : State → State} (q : Phase)
    (hr : (s.phase, r, v, q) ∈ writeRows s.cfg) (h : thenDo (regWrite r v s) (fun u => .next (f u)) = .next t)
    (hf : ∀ u, f u = { u with
      phase := q, sub := .poll, pollCnt := if q = .selW then 0#17 else u.pollCnt, done := decide (q = .done) || u.done,
      buf := if q = .done ∧ u.err ≠ .ok then [] else u.buf }) (hc : r ≠ .cmd) : PhaseStep s t := by
  obtain ⟨hw, e, he, rfl⟩ := write_then_next h
  refine .writes r v q e hr hw he ?_
  rw [hf, written, State.latch, if_neg hc]
  rfl

theorem phase_next {s t : State} (h : exec s.phase.instr s = .next t) : PhaseStep s t := by
  cases hp : s.phase <;> simp only [hp, Phase.instr, exec] at h
  case idle => exact wait_step (.inl hp) h
  case done => exact wait_step (.inr hp) h
  case initSettle => cases h; exact .settles hp rfl
  case rcv => exact recv_step hp h
  case selW =>
    exact send_step (x := .selW) (by rw [hp]; decide) (by rw [hp]; rfl) (by rw [hp]; exact h)
      fun hs => .moves hs .offset (by rw [hp]; decide) rfl
  case offset =>
    exact send_step (x := .offset) (by rw [hp]; decide) (by rw [hp]; rfl) (by rw [hp]; exact h)
      fun hs => .moves hs .selR (by rw [hp]; decide) rfl
  case selR =>
    exact send_step (x := .selR) (by rw [hp]; decide) (by rw [hp]; rfl) (by rw [hp]; exact h)
      fun hs => .moves hs .req (by rw [hp]; decide) rfl
  case req =>
    exact send_step (x := reqSite s.remaining) (by rw [hp]; decide) (by rw [hp]; rfl) (by rw [hp]; exact h)
      fun hs => .moves hs .rcv (by rw [hp]; decide) rfl
  case finDisable =>
    refine write_step .done (by simp [hp, writeRows]; rfl) h (fun u => ?_) (by decide)
    rw [State.endLoad_eq]
    by_cases hk : u.err = .ok <;> simp [hk, State.goto]
  case initDisable => exact write_step .initClklow (by simp [hp, writeRows]; rfl) h (fun _ => rfl) (by decide)
  case initClklow => exact write_step .initClkhigh (by simp [hp, writeRows]; rfl) h (fun _ => rfl) (by decide)
  case initClkhigh => exact write_step .initHold (by simp [hp, writeRows]; rfl) h (fun _ => rfl) (by decide)
  case initHold => exact write_step .initAck (by simp [hp, writeRows]; rfl) h (fun _ => rfl) (by decide)
  case initAck => exact write_step .initEnable (by simp [hp, writeRows]; rfl) h (fun _ => rfl) (by decide)
  case initEnable => exact write_step .initSettle (by simp [hp, writeRows]) h (fun _ => rfl) (by decide)
  case preAck => exact write_step .selW (by simp [hp, writeRows]; rfl) h (fun _ => rfl) (by decide)

/-- The polling phases belong to a LOAD and are neither its last nor its end. -/
theorem busy_of_poll {p : Phase} (h : p ∈ pollPhases) : p.busy = true ∧ p ≠ .finDisable ∧ p ≠ .done := by
  revert p; decide

/-- A phase faults only in `RCV`, outside its rows or without an index (log entries 11, 12). -/
theorem exec_phase_fault {s : State} {x : Fault} (h : exec s.phase.instr s = .fault x) :
    s.phase = .rcv ∧ (s.sub = .settle ∨ bufIndex s.remaining = none) := by
  have hw : ∀ r v (f : State → State), thenDo (regWrite r v s) (fun u => .next (f u)) ≠ .fault x := by
    intro r v f hh
    rcases thenDo_fault.1 hh with h | ⟨u, _, h⟩
    · exact regWrite_not_fault _ _ _ _ h
    · cases h
  have ha : awaitStart s ≠ .fault x := by
    unfold awaitStart beginLoad; split
    · split <;> simp
    · simp
  cases hp : s.phase <;> simp only [hp, Phase.instr, exec] at h
  case rcv =>
    refine ⟨rfl, ?_⟩
    unfold execRcv recvPhase at h
    split at h
    · exact absurd h (pollRead_not_fault _ _ _ _)
    · cases h
    · split at h
      · exact .inr (by assumption)
      · split at h <;> cases h
    · exact .inl (by assumption)
  all_goals first
    | exact absurd h (hw _ _ _)
    | exact absurd h ha
    | exact absurd h (sendPhase_not_fault _ _ _ _ _)
    | cases h

end Sys2Proof.Machine
end

