-- ==== Sys2Proof/Tests/Slice0.lean ====
section
/-! SUPPORT. Small tests: well-formedness, decoding of the spec's words, one step of each instruction with the values of
95_test_vectors.md, and a witness for the hypotheses of each statement. -/

namespace Sys2Proof.Tests

open Sys2Proof.Machine

/-! Builders. -/

/-- The state after reset at another phase and sub-phase. -/
def at' (p : Phase) (q : Sub) : State := { State.reset with phase := p, sub := q }

/-- A state whose E0 tape begins with the given answers. -/
def answering (tape : List Word) (s : State) : State := { s with env := .oracle tape }

/-- An enabled E2 on the given bus, every byte of its EEPROM being 0xA5. -/
def dev (b : Bus) : Device := ⟨true, b, 0#8, false, 0#8, Vector.replicate 256 0xA5#8, 0#32, 0#32, 0#32, true, []⟩

/-- A disabled E2. -/
def devOff : Device := { dev .idle with cEn := false }

/-- An E1 with an image of 0xA5 bytes and the given stuck poll. -/
def dbl (k : Option Nat) : Double := ⟨Vector.replicate 256 0xA5#8, k, 0, false, 0⟩

/-- A state with E2 behind the window. -/
def withDev (e : Device) (s : State) : State := { s with env := .device e }

/-- A finished LOAD with the given error and buffer, and host moves to come. -/
def finished (k : Kind) (m : Mem) (h : List HostMove) : State :=
  { State.reset with
    phase := .done, done := true, err := k, buf := m, host := h, pollCnt := if k = .ok then 0#17 else 100000#17 }

/-- The last step of a LOAD is to come, with the given error and buffer. -/
def ending (k : Kind) (m : Mem) : State :=
  { at' .finDisable .poll with err := k, buf := m, pollCnt := if k = .ok then 0#17 else 100000#17 }

/-- The buffer of T3 and T4: format 0, MAC 02 11 22 33 44 55, tag "SN0001234" and a space. -/
def image : Mem :=
  [(0, 0x00#8), (1, 0x02#8), (2, 0x11#8), (3, 0x22#8), (4, 0x33#8), (5, 0x44#8), (6, 0x55#8)] ++
  [(7, 0x53#8), (8, 0x4E#8), (9, 0x30#8), (10, 0x30#8), (11, 0x30#8), (12, 0x31#8), (13, 0x32#8), (14, 0x33#8),
    (15, 0x34#8), (16, 0x20#8)]

def nextOf (o : Host.Outcome State Fault Refusal) : Option State :=
  match o with
  | .next s => some s
  | .fault _ => none
  | .refused _ => none

def refusalOf (o : Host.Outcome State Fault Refusal) : Option Refusal :=
  match o with
  | .next _ => none
  | .fault _ => none
  | .refused x => some x

def deviceOf (o : Host.Outcome State Fault Refusal) : Option Device :=
  match nextOf o with
  | some s =>
    match s.env with
    | .device e => some e
    | .oracle _ => none
    | .double _ => none
  | none => none

/-! Well-formedness: the defaults meet R7, and one ill-formed term per check. -/

theorem test_std_wf : Config.std.wf = true := by decide
theorem test_wf_distinct_offsets : Config.wf { Config.std with offCtrl := 0x00 } = false := by decide
theorem test_wf_aligned_offsets : Config.wf { Config.std with offCtrl := 0x0A } = false := by decide
theorem test_wf_start_nonzero : Config.wf { Config.std with cmdStart := 0#32 } = false := by decide
theorem test_wf_rstart_low_bits : Config.wf { Config.std with cmdRstart := 0x201#32 } = false := by decide
theorem test_wf_stop_nonzero : Config.wf { Config.std with cmdStop := 0#32 } = false := by decide
theorem test_wf_stop_not_start : Config.wf { Config.std with cmdStop := 0x200#32 } = false := by decide
theorem test_wf_stop_not_rstart : Config.wf { Config.std with cmdRstart := 0x300#32 } = false := by decide
theorem test_wf_directions : Config.wf { Config.std with dirRead := 0#1 } = false := by decide
theorem test_wf_tx_one_bit : Config.wf { Config.std with txReady := 0x5#32 } = false := by decide
theorem test_wf_rx_one_bit : Config.wf { Config.std with rxReady := 0#32 } = false := by decide
theorem test_wf_ready_distinct : Config.wf { Config.std with rxReady := 0x1#32 } = false := by decide
theorem test_wf_enable : Config.wf { Config.std with ctrlEnable := 0#32 } = false := by decide
/-- V1: 0x300 (start and stop), 0x400 and 0x8000_0000 are reserved. -/
theorem test_wf_words :
    commandWf Config.std 0x2A2#32 = true ∧ commandWf Config.std 0x300#32 = false ∧
      commandWf Config.std 0x400#32 = false ∧ commandWf Config.std 0x80000000#32 = false := by decide

/-! Constants (V1) and codes (R13, R161). -/

theorem test_counts : Config.sclCount = 0x1F4#32 ∧ Config.holdCount = 0x1E#32 := by decide
theorem test_codes : Sub.settle.code = 3#2 ∧ Kind.insufficientCapacity.code = 3#2 ∧ Phase.rcv.code = 13#4 := by decide

/-! Decoding (V1, T7; the words written out from R71 and R72: [31:10] 0, [9] start, [8] stop, [7:1] address, [0]
direction). -/

theorem test_decode_start :
    decodeForm Config.std false 0b00000000000000000000001010100010#32 = .ok (.start 0x51#7 .w) := by decide
theorem test_decode_start_high :
    decodeForm Config.std false 0b00000000000000000000001011111111#32 = .ok (.start 0x7F#7 .r) := by decide
theorem test_decode_rstart :
    decodeForm Config.std true 0b00000000000000000000001010100011#32 = .ok (.rstart 0x51#7 .r) := by decide
/-- V1: with `CMD_RSTART` = 0x400 the word alone tells the two apart. -/
theorem test_decode_rstart_own_mask :
    decodeForm { Config.std with cmdRstart := 0x400#32 } false 0x4A3#32 = .ok (.rstart 0x51#7 .r) := by decide
/-- V1: "a data byte that happens to look like an address byte". -/
theorem test_decode_data :
    decodeForm Config.std false 0b00000000000000000000000010100010#32 = .ok (.data 0xA2#8) := by decide
theorem test_decode_data_stop :
    decodeForm Config.std true 0b00000000000000000000000111111111#32 = .ok (.dataStop 0xFF#8) := by decide
theorem test_decode_words :
    decodeCommand Config.std ⟨some .selW, false⟩ 0x2A2#32 = .ok .wSelW ∧
    decodeCommand Config.std ⟨some .offset, true⟩ 0x000#32 = .ok .wOffset ∧
    decodeCommand Config.std ⟨some .selR, true⟩ 0x2A3#32 = .ok .wSelR ∧
    decodeCommand Config.std ⟨some .cont, true⟩ 0x000#32 = .ok .wCont ∧
    decodeCommand Config.std ⟨some .last, true⟩ 0x100#32 = .ok .wLast := by decide
theorem test_decode_reserved :
    decodeForm Config.std false 0x300#32 = .error .stopInAddressPhase ∧
    decodeForm Config.std false 0x80000000#32 = .error .outsideFields ∧
    decodeForm { Config.std with cmdRstart := 0x400#32 } false 0x600#32 = .error .startAndRstart ∧
    decodeForm { Config.std with cmdStart := 0x600#32 } false 0x400#32 = .error .partialFlag := by decide
theorem test_decode_phases :
    (List.range 17).map (decodeTableWord 8) =
      [some .idle, some .initDisable, some .initClklow, some .initClkhigh, some .initHold, some .initAck,
        some .initEnable, some .initSettle, some .preAck, some .selW, some .offset, some .selR, some .req, some .rcv,
        some .finDisable, some .done, none] := by decide
theorem test_table_words :
    decodeTableWord 32 0x2A2 = some .wSelW ∧ decodeTableWord 32 0x200 = some (.start 0#7 .w) ∧
      decodeTableWord 32 0x0FF = some (.data 0xFF#8) ∧ decodeTableWord 32 0x300 = none := by decide

/-! Fetching a placed word as the first instruction after reset. -/

theorem test_fetch_placed_phase : fetch (State.reset.withFetchWord 8 13) = .ok .rcv := by decide
theorem test_fetch_placed_word : fetch (State.reset.withFetchWord 32 0x100) = .ok .wLast := by decide
theorem test_step_placed_start :
    step (State.reset.withFetchWord 32 0x2FF) = exec (.start 0x7F#7 .r) (State.reset.withFetchWord 32 0x2FF) := rfl

/-! The commands under E2 (R111 to R119). -/

theorem test_start : (deviceOf (exec (.start 0x51#7 .w) (withDev (dev .idle) State.reset))).map (·.bus) =
    some .write := by decide
theorem test_start_absent : (deviceOf (exec (.start 0x50#7 .r) (withDev (dev .idle) State.reset))).map (·.bus) =
    some .nodev := by decide
theorem test_rstart : (deviceOf (exec (.rstart 0x51#7 .r) (withDev { dev .write with ptr := 9#8 } State.reset))).map
    (fun e => (e.bus, e.ptr)) = some (.read, 9#8) := by decide
theorem test_data_write : (deviceOf (exec (.data 7#8) (withDev (dev .write) State.reset))).map (·.ptr) =
    some 7#8 := by decide
/-- R113: the offset wraps at 256. -/
theorem test_data_read : (deviceOf (exec (.data 7#8) (withDev { dev .read with ptr := 255#8 } State.reset))).map
    (fun e => (e.rxByte, e.rxValid, e.ptr)) = some (0xA5#8, true, 0#8) := by decide
theorem test_data_stop : (deviceOf (exec (.dataStop 0#8) (withDev (dev .read) State.reset))).map
    (fun e => (e.rxByte, e.bus)) = some (0xA5#8, .idle) := by decide
theorem test_data_idle_bus : refusalOf (exec (.data 0#8) (withDev (dev .idle) State.reset)) =
    some .deviceDataOnIdleBus := by decide
theorem test_w_sel_w : (deviceOf (exec .wSelW (withDev (dev .idle) State.reset))).map (·.bus) = some .write := by decide
theorem test_w_offset : (deviceOf (exec .wOffset (withDev { dev .write with ptr := 9#8 } State.reset))).map (·.ptr) =
    some 0#8 := by decide
theorem test_w_sel_r : (deviceOf (exec .wSelR (withDev (dev .write) State.reset))).map (·.bus) = some .read := by decide
theorem test_w_cont : (deviceOf (exec .wCont (withDev (dev .read) State.reset))).map
    (fun e => (e.rxByte, e.ptr, e.bus)) = some (0xA5#8, 1#8, .read) := by decide
theorem test_w_last : (deviceOf (exec .wLast (withDev (dev .read) State.reset))).map
    (fun e => (e.rxValid, e.bus)) = some (true, .idle) := by decide

/-! The phases (P1, V2, V3, V4). -/

/-- P1: `load_start` makes no event. -/
theorem test_idle : (nextOf (exec .idle { State.reset with host := [.loadStart] })).map
    (fun t => (t.phase, t.done, t.trace)) = some (.initDisable, false, []) := by decide
theorem test_idle_stays : (nextOf (exec .idle State.reset)).map (·.phase) = some .idle := by decide
theorem test_init_disable : (nextOf (exec .initDisable (at' .initDisable .poll))).map (fun t => (t.phase, t.trace)) =
    some (.initClklow, [.w 0x08 0#32]) := by decide
theorem test_init_clklow : (nextOf (exec .initClklow (at' .initClklow .poll))).map (fun t => (t.phase, t.trace)) =
    some (.initClkhigh, [.w 0x20 0x1F4#32]) := by decide
theorem test_init_clkhigh : (nextOf (exec .initClkhigh (at' .initClkhigh .poll))).map (fun t => (t.phase, t.trace)) =
    some (.initHold, [.w 0x24 0x1F4#32]) := by decide
theorem test_init_hold : (nextOf (exec .initHold (at' .initHold .poll))).map (fun t => (t.phase, t.trace)) =
    some (.initAck, [.w 0x28 0x1E#32]) := by decide
theorem test_init_ack : (nextOf (exec .initAck (at' .initAck .poll))).map (fun t => (t.phase, t.trace)) =
    some (.initEnable, [.w 0x10 0xFFFFFFFF#32]) := by decide
theorem test_init_enable : (nextOf (exec .initEnable (at' .initEnable .poll))).map (fun t => (t.phase, t.trace)) =
    some (.initSettle, [.w 0x08 1#32]) := by decide
theorem test_init_settle : (nextOf (exec .initSettle (at' .initSettle .poll))).map (fun t => (t.phase, t.trace)) =
    some (.preAck, [.d 10]) := by decide
theorem test_pre_ack : (nextOf (exec .preAck { at' .preAck .poll with pollCnt := 5#17 })).map
    (fun t => (t.phase, t.pollCnt, t.trace)) = some (.selW, 0#17, [.w 0x10 0xFFFFFFFF#32]) := by decide
/-- V2: the other ready bit does not count. -/
theorem test_sel_w_not_ready : (nextOf (exec .selW (answering [0x2#32] (at' .selW .poll)))).map
    (fun t => (t.sub, t.trace)) = some (.pollWait, [.r 0x10 2#32]) := by decide
/-- V2: the 100 000th not-ready read fails. -/
theorem test_sel_w_timeout : (nextOf (exec .selW { at' .selW .pollWait with pollCnt := 99999#17 })).map
    (fun t => (t.phase, t.err, t.pollCnt)) = some (.finDisable, .timeout, 100000#17) := by decide
theorem test_offset_word : (nextOf (exec .offset (at' .offset .xfer))).map
    (fun t => (t.sub, t.inFlight, t.trace)) = some (.settle, some 0#32, [.w 0x00 0#32]) := by decide
theorem test_sel_r_settle : (nextOf (exec .selR (at' .selR .settle))).map
    (fun t => (t.phase, t.remaining, t.trace)) = some (.req, 256#9, [.d 1]) := by decide
/-- V4, pass 256: STOP on the last request. -/
theorem test_req_last : (nextOf (exec .req { at' .req .xfer with remaining := 1#9 })).map (·.inFlight) =
    some (some 0x100#32) := by decide
theorem test_req_cont : (nextOf (exec .req { at' .req .xfer with remaining := 2#9 })).map (·.inFlight) =
    some (some 0#32) := by decide
/-- V3: 0xFFFF_FF5A gives 0x5A; V4, pass 1: index 0, then 255 left. -/
theorem test_rcv_first : (nextOf (exec .rcv (answering [0xFFFFFF5A#32] { at' .rcv .xfer with remaining := 256#9 }))).map
    (fun t => (t.phase, t.remaining, t.buf)) = some (.req, 255#9, [(0, 0x5A#8)]) := by decide
/-- V4, pass 256: index 255, then the loop ends. -/
theorem test_rcv_last : (nextOf (exec .rcv (answering [0x100#32] { at' .rcv .xfer with remaining := 1#9 }))).map
    (fun t => (t.phase, t.remaining, t.buf)) = some (.finDisable, 0#9, [(255, 0x00#8)]) := by decide
theorem test_fin_disable : (nextOf (exec .finDisable { at' .finDisable .poll with err := .timeout })).map
    (fun t => (t.phase, t.done, t.err, t.trace)) = some (.done, true, .timeout, [.w 0x08 0#32]) := by decide
/-- R19, R164: a failed LOAD leaves no byte known; a successful one keeps its bytes. -/
theorem test_fin_disable_buf :
    (nextOf (exec .finDisable { at' .finDisable .poll with err := .timeout, buf := [(0, 1#8)] })).map (·.buf) = some [] ∧
    (nextOf (exec .finDisable { at' .finDisable .poll with buf := [(0, 1#8)] })).map (·.buf) = some [(0, 1#8)] := by
  decide
/-- P6: after the last byte `poll_cnt` is 0 also where the last poll was not ready at once. -/
theorem test_rcv_last_poll_cnt : (nextOf (exec .rcv (answering [0#32]
    { at' .rcv .xfer with remaining := 1#9, pollCnt := 3#17 }))).map (·.pollCnt) = some 0#17 := by decide
/-- P5: a retry from `DONE` clears `done` and `err`. -/
theorem test_done_retry : (nextOf (exec .done (finished .timeout [] [.loadStart]))).map
    (fun t => (t.phase, t.done, t.err)) = some (.initDisable, false, .ok) := by decide
theorem test_done_stays : (nextOf (exec .done (finished .ok image []))).map (·.phase) = some .done := by decide

/-! Memory. -/

theorem test_mem_order : Mem.set (Mem.set [] 5 1#8) 2 7#8 = [(2, 7#8), (5, 1#8)] := by decide
theorem test_mem_wf_refuses : Mem.wf [(5, 1#8), (2, 7#8)] = false ∧ Mem.wf [(256, 0#8)] = false := by decide

/-! The accessors (T3, T4, V6, V7). -/

theorem test_mac : (nextOf (step (finished .ok image [.macAddress]))).map (·.replies) =
    some [.mac .ok [0x02#8, 0x11#8, 0x22#8, 0x33#8, 0x44#8, 0x55#8]] := by decide
theorem test_tag : (nextOf (step (finished .ok image [.assetTag (List.replicate 12 0xEE#8) 12]))).map (·.replies) =
    some [.tag .ok [0x53#8, 0x4E#8, 0x30#8, 0x30#8, 0x30#8, 0x31#8, 0x32#8, 0x33#8, 0x34#8, 0x20#8, 0x00#8, 0xEE#8]] := by
  decide
theorem test_tag_small : (nextOf (step (finished .ok image [.assetTag (List.replicate 10 0xEE#8) 10]))).map (·.replies) =
    some [.tag .insufficientCapacity (List.replicate 10 0xEE#8)] := by decide
/-- R153: `cap` decides; the 11 bytes go to indices 0 to 10 also where `out` gives fewer. -/
theorem test_tag_cap_decides :
    (nextOf (step (finished .ok image [.assetTag [] 11]))).map (·.replies) = some [.tag .ok
      [0x53#8, 0x4E#8, 0x30#8, 0x30#8, 0x30#8, 0x31#8, 0x32#8, 0x33#8, 0x34#8, 0x20#8, 0x00#8]] ∧
    (nextOf (step (finished .ok image [.assetTag (List.replicate 12 0xEE#8) 10]))).map (·.replies) =
      some [.tag .insufficientCapacity (List.replicate 12 0xEE#8)] := by decide
/-- V7: the stored error hides the format, the format hides the capacity. -/
theorem test_tag_order :
    (nextOf (step (finished .timeout [(0, 1#8)] [.assetTag [] 0]))).map (·.replies) = some [.tag .timeout []] ∧
    (nextOf (step (finished .ok [(0, 1#8)] [.assetTag [] 0]))).map (·.replies) = some [.tag .unrecognizedFormat []] := by
  decide
theorem test_early_mac : refusalOf (step { State.reset with host := [.macAddress] }) = some .readBeforeDone := by decide

/-! Witnesses: for each statement with hypotheses, a state and operands that meet them. -/

theorem test_wit_decoded : decodeForm Config.std false 0x2A2#32 = .ok (.start 0x51#7 .w) ∧ Config.std.wf = true := by
  decide

/-- A state of phase `SEL_W` whose command is in flight. -/
def flying : State := { at' .selW .settle with inFlight := some 0x2A2#32 }

theorem test_wit_step_flight : flying.inFlight = some 0x2A2#32 ∧
    decode flying.cfg ⟨siteOf flying.phase flying.remaining, flying.env.held⟩ (.command 0x2A2#32) = .ok .wSelW := by
  decide
theorem test_wit_step_phase : (at' .rcv .poll).inFlight = none ∧ (at' .rcv .poll).host = [] ∧
    decode (at' .rcv .poll).cfg ⟨siteOf .rcv 0#9, false⟩ (.phase (at' .rcv .poll).phase.code) = .ok .rcv := by decide
theorem test_wit_step_quiet : ({ at' .initAck .poll with host := [.quiet] } : State).inFlight = none ∧
    ({ at' .initAck .poll with host := [.quiet] } : State).phase ≠ .idle ∧
    ({ at' .initAck .poll with host := [.quiet] } : State).phase ≠ .done ∧
    decode Config.std ⟨siteOf .initAck 0#9, false⟩ (.phase (at' .initAck .poll).phase.code) = .ok .initAck ∧
    ({ State.reset with host := [.quiet] } : State).phase = .idle := by decide
/-- One move a step: after a quiet step in `IDLE` the `load_start` is still to come. -/
theorem test_quiet_in_idle : (nextOf (step { State.reset with host := [.quiet, .loadStart] })).map
    (fun t => (t.phase, t.host)) = some (.idle, [.loadStart]) := by decide
theorem test_wit_window : ∃ t u, step { State.reset with window := none, host := [.attach 8, .detach] } = .next t ∧
    t.window = some 8 ∧ step t = .next u ∧ u.window = none := ⟨_, _, rfl, rfl, rfl, rfl⟩
theorem test_wit_core_under : ∃ t, (at' .initAck .poll).cfg = Config.std ∧
    runSteps 2 (at' .initAck .poll) = .next t := ⟨_, rfl, rfl⟩
theorem test_wit_step_under : ∃ t, stepUnder { Config.std with cmdRstart := 0x400#32 } (at' .initAck .poll).toBlock =
    .next t := ⟨_, rfl⟩
/-- R7, R56: a base that is no multiple of 4 is no window. -/
theorem test_reset_window : (State.resetWith Config.std 3).window = none ∧
    (State.resetWith Config.std 8).window = some 8 := by decide
theorem test_attach_misaligned : refusalOf (step { State.reset with window := none, host := [.attach 3] }) =
    some .misalignedBase := by decide

/-- A step of the block in a LOAD, for the statements about every step. -/
theorem test_wit_block_step : ∃ t, step (at' .initDisable .poll) = .next t ∧
    (at' .initDisable .poll).phase.busy = true ∧ (at' .initDisable .poll).inFlight = none := ⟨_, rfl, rfl, rfl⟩
theorem test_wit_controller_step : ∃ t, step flying = .next t ∧ flying.inFlight ≠ none := ⟨_, rfl, by decide⟩
theorem test_wit_idle_step : ∃ t, step State.reset = .next t ∧ State.reset.phase.busy = false := ⟨_, rfl, rfl⟩
theorem test_wit_command_write : ∃ t, step (at' .selW .xfer) = .next t ∧
    t.trace = (at' .selW .xfer).trace ++ [.w (at' .selW .xfer).cfg.offCmd 0x2A2#32] ∧ Config.std.wf = true :=
  ⟨_, rfl, by decide, by decide⟩
theorem test_wit_untouched : ∃ t, step (at' .initAck .poll) = .next t ∧ Reg.ien ≠ (at' .initAck .poll).cfg.offPoll ∧
    ∃ ev, t.trace = (at' .initAck .poll).trace ++ [ev] := ⟨_, rfl, by decide, _, rfl⟩

/-- The invariant of the block does not speak of the environment. -/
theorem test_inv_any_env (s : State) (e : Env) (h : Inv s) : Inv { s with env := e } :=
  ⟨h.cfgWf, h.bufWf, h.doneIff, h.errStored, h.errPending, h.remainingLe, h.remainingPos, h.pollLe, h.pollLt,
    h.subPoll, h.subRcv, h.windowHeld, h.windowAligned, h.flight, h.filledLoop, h.filledEnd, h.remainingEnd,
    h.pollFailed, h.controlEnd, h.unknownBefore, h.unknownAhead, h.unknownFailed⟩

/-- The state in which INIT is about to begin meets the invariant. -/
theorem test_inv_load_start : Inv (at' .initDisable .poll) where
  cfgWf := by decide
  bufWf := by decide
  doneIff := by decide
  errStored := by decide
  errPending := by decide
  remainingLe := by decide
  remainingPos := by decide
  pollLe := by decide
  pollLt := by decide
  subPoll := by decide
  subRcv := by decide
  windowHeld := by decide
  windowAligned := by intro b h; cases h; rfl
  flight := by intro w h; cases h
  filledLoop := by intro h; cases h <;> contradiction
  filledEnd := by intro h; cases h <;> contradiction
  remainingEnd := by intro h; cases h <;> contradiction
  pollFailed := by intro h; cases h <;> contradiction
  controlEnd := by intro h; contradiction
  unknownBefore := fun _ => rfl
  unknownAhead := by intro h; cases h <;> contradiction
  unknownFailed := fun _ _ => rfl

theorem test_wit_inv_step : ∃ t, Inv (at' .initDisable .poll) ∧ step (at' .initDisable .poll) = .next t :=
  ⟨_, test_inv_load_start, rfl⟩

/-- A trace that ends in the given event, after the disabling write. -/
def after (ev : Event) (s : State) : State := { s with trace := [.w 0x08 0#32, ev] }

/-! One state for each clause of the hazard rules. -/

theorem test_hazard_sending : HazardInv (after (.r 0x10 1#32) (at' .selW .xfer)) where
  sendReady := fun _ _ => ⟨1#32, rfl, rfl⟩
  recvReady := fun h => by contradiction
  writeThenSettle := fun _ h => by cases h
  enableThenSettle := fun h => by cases h
  settleAfterWrite := fun _ h => by contradiction
  settleAfterEnable := fun h => by contradiction
  timingDisabled := by decide
theorem test_hazard_receiving : HazardInv (after (.r 0x10 2#32) (at' .rcv .xfer)) where
  sendReady := fun h => absurd h (by decide)
  recvReady := fun _ _ => ⟨2#32, rfl, rfl⟩
  writeThenSettle := fun _ h => by cases h
  enableThenSettle := fun h => by cases h
  settleAfterWrite := fun h => absurd h (by decide)
  settleAfterEnable := fun h => by contradiction
  timingDisabled := by decide
theorem test_hazard_write_settle : HazardInv (after (.w 0x00 0x2A2#32) (at' .selW .settle)) where
  sendReady := fun _ h => by contradiction
  recvReady := fun h => by contradiction
  writeThenSettle := fun _ _ => .inl (by decide)
  enableThenSettle := fun h => absurd h (by decide)
  settleAfterWrite := fun _ _ => ⟨0x2A2#32, rfl⟩
  settleAfterEnable := fun h => by contradiction
  timingDisabled := by decide
theorem test_hazard_enable_settle : HazardInv (after (.w 0x08 1#32) (at' .initSettle .poll)) where
  sendReady := fun h => absurd h (by decide)
  recvReady := fun h => by contradiction
  writeThenSettle := fun _ h => by cases h
  enableThenSettle := fun _ => .inl rfl
  settleAfterWrite := fun h => absurd h (by decide)
  settleAfterEnable := fun _ => rfl
  timingDisabled := by decide
theorem test_hazard_timing : HazardInv (after (.w 0x20 500#32) (at' .initClkhigh .poll)) where
  sendReady := fun h => absurd h (by decide)
  recvReady := fun h => by contradiction
  writeThenSettle := fun _ h => by cases h
  enableThenSettle := fun h => by cases h
  settleAfterWrite := fun h => absurd h (by decide)
  settleAfterEnable := fun h => by contradiction
  timingDisabled := by decide
theorem test_wit_hazard : ∃ t, step (after (.w 0x00 0x2A2#32) (at' .selW .settle)) = .next t ∧ Config.std.wf = true :=
  ⟨_, rfl, by decide⟩

theorem test_wit_oracle_goes_on : Inv (at' .initDisable .poll) ∧ (at' .initDisable .poll).host = [] ∧
    (at' .initDisable .poll).env = .oracle [] := ⟨test_inv_load_start, rfl, rfl⟩

/-- E0 and a disabled E2 absorb the writes of INIT, an E2 the enabling and acknowledge writes. -/
theorem test_wit_absorb :
    (Env.oracle []).absorb Config.std .ctrl 0#32 = .ok (.oracle []) ∧
    (Env.device devOff).absorb Config.std .scllow 500#32 = .ok (.device { devOff with tLow := 500#32 }) ∧
    (Env.device devOff).absorb Config.std .sclhigh 500#32 = .ok (.device { devOff with tHigh := 500#32 }) ∧
    (Env.device devOff).absorb Config.std .sdahold 30#32 = .ok (.device { devOff with tHold := 30#32 }) ∧
    (Env.device devOff).absorb Config.std .isr 0xFFFFFFFF#32 = .ok (.device devOff) ∧
    (Env.device devOff).absorb Config.std .ctrl Config.std.ctrlEnable = .ok (.device { devOff with cEn := true }) ∧
    (Env.device (dev .idle)).absorb Config.std .cmd 0x2A2#32 = .ok (.device (dev .idle)) ∧
    State.reset.window ≠ none := by
  refine ⟨rfl, rfl, rfl, rfl, rfl, rfl, rfl, by decide⟩

theorem test_wit_waiting : ({ State.reset with host := [.loadStart] } : State).host = .loadStart :: [] ∧
    State.reset.window ≠ none ∧ ∀ rest, State.reset.host ≠ .loadStart :: rest := by
  refine ⟨rfl, by decide, ?_⟩
  intro rest h
  cases h

theorem test_wit_poll_answer : (answering [1#32] (at' .req .poll)).window ≠ none ∧
    (answering [1#32] (at' .req .poll)).sub = .poll ∧
    (Env.oracle [1#32]).answer Config.std 0 Config.std.offPoll = .ok (1#32, .oracle []) := by
  refine ⟨by decide, rfl, rfl⟩
theorem test_wit_poll_wait : (at' .rcv .pollWait).sub = .pollWait ∧ (at' .rcv .pollWait).pollCnt + 1#17 ≠ 100000#17 ∧
    ({ at' .rcv .pollWait with pollCnt := 99999#17 } : State).pollCnt + 1#17 = 100000#17 := by decide
theorem test_wit_words :
    (at' .selW .xfer).sub = .xfer ∧ (at' .selW .xfer).window ≠ none ∧
    (Env.oracle []).absorb Config.std .cmd (siteWord Config.std .last) = .ok (.oracle []) ∧
    ({ at' .req .xfer with remaining := 1#9 } : State).remaining = 1#9 ∧ (256#9 : BitVec 9) ≠ 1#9 := by
  refine ⟨rfl, by decide, rfl, rfl, by decide⟩
theorem test_wit_settle : (at' .selW .settle).sub = .settle := rfl
theorem test_wit_rcv : (at' .rcv .xfer).window ≠ none ∧ 1 ≤ (256#9 : BitVec 9).toNat ∧ (256#9 : BitVec 9).toNat ≤ 256 ∧
    (Env.oracle [5#32]).answer Config.std 0 .rxdata = .ok (5#32, .oracle []) := by
  refine ⟨by decide, by decide, by decide, rfl⟩
theorem test_wit_rcv_next : ∃ t, exec .rcv { at' .rcv .xfer with remaining := 256#9 } = .next t := ⟨_, rfl⟩
theorem test_wit_no_store : ∃ t, exec .rcv (at' .rcv .poll) = .next t ∧ (at' .rcv .poll).sub ≠ .xfer :=
  ⟨_, rfl, by decide⟩
theorem test_wit_buf_step : ∃ t, step (answering [5#32] { at' .rcv .xfer with remaining := 256#9 }) = .next t ∧
    t.buf = [(0, 5#8)] := ⟨_, rfl, by decide⟩
theorem test_wit_rcv_faults : (at' .rcv .settle).sub = .settle ∧ (at' .rcv .xfer).remaining = 0#9 ∧
    256 < (257#9 : BitVec 9).toNat := by decide

theorem test_wit_no_device : (∃ tape, State.reset.env = .oracle tape) ∧
    ∃ e, ({ State.reset with env := .double (dbl none) } : State).env = .double e := ⟨⟨[], rfl⟩, _, rfl⟩
theorem test_wit_device : (withDev (dev .read) State.reset).env = .device (dev .read) ∧ (dev .read).cEn = true ∧
    (dev .write).bus = .write ∧ (dev .nodev).bus = .nodev ∧
    (dev .read).rom[(dev .read).ptr.toNat]? = some 0xA5#8 := by
  refine ⟨rfl, rfl, rfl, rfl, by decide⟩
theorem test_device_refuses_words :
    refusalOf (exec .wSelR (withDev devOff State.reset)) = some .deviceCommandWhileDisabled ∧
    refusalOf (exec .wLast (withDev (dev .idle) State.reset)) = some .deviceDataOnIdleBus := by decide
theorem test_wit_device_lag : ({ dev .read with lag := [true, false] } : Device).lag = true :: [false] ∧
    (({ dev .read with lag := [true, false] } : Device).pollAnswer Config.std).1 = 0#32 ∧
    (({ dev .read with lag := [true, false] } : Device).pollAnswer Config.std).2.lag = [false] := by decide
theorem test_wit_device_refuses : devOff.cEn = false ∧ (dev .idle).cEn = true ∧ (dev .idle).bus = .idle := by decide
theorem test_wit_device_reads : (dev .read).lag = [] ∧ Config.std.offPoll ≠ .rxdata ∧ (dev .read).rxValid = false ∧
    ({ dev .read with rxValid := true } : Device).rxValid = true ∧ Reg.cmd ≠ Config.std.offPoll ∧ Reg.cmd ≠ .rxdata := by
  decide
theorem test_wit_device_writes : Config.std.wf = true ∧ (2#32 : Word) ≠ Config.std.ctrlEnable ∧ (2#32 : Word) ≠ 0#32 ∧
    devOff.cEn = false ∧ (dev .idle).cEn = true := by decide
theorem test_wit_double : (dbl none).pollNumber = 1 ∧ (dbl none).stuck ≠ some 1 ∧ (dbl (some 1)).pollNumber = 1 ∧
    (dbl (some 1)).stuck = some 1 ∧ (dbl none).img[(dbl none).dataReads]? = some 0xA5#8 := by decide

/-- Poll 5 is the receive poll of the first byte (R62): stuck, it shows the transmit bit alone; and the last data read. -/
theorem test_wit_double_receive :
    ({ dbl (some 5) with polls := 4 } : Double).pollNumber = 5 ∧
    (({ dbl (some 5) with polls := 4 } : Double).pollAnswer Config.std 5) = 1#32 ∧
    awaitedBit Config.std 5 = Config.std.rxReady ∧
    ({ dbl none with dataReads := 255 } : Double).img[({ dbl none with dataReads := 255 } : Double).dataReads]? =
      some 0xA5#8 := by decide

theorem test_wit_two_environments : ∃ t t', exec .selW (answering [1#32] (at' .selW .poll)) = .next t ∧
    exec .selW { answering [1#32] (at' .selW .poll) with env := .device (dev .idle) } = .next t' ∧
    t.trace = t'.trace := ⟨_, _, rfl, rfl, by decide⟩

theorem test_wit_mac :
    (finished .ok image [.macAddress]).inFlight = none ∧ (finished .ok image [.macAddress]).done = true ∧
    (finished .timeout [] [.macAddress]).err ≠ .ok ∧
    (finished .ok [(0, 1#8)] [.macAddress]).buf.get? 0 = some 1#8 ∧
    (finished .ok image [.macAddress]).buf.get? 0 = some 0#8 ∧
    (finished .ok image [.macAddress]).buf.get? 6 = some 0x55#8 := by decide
theorem test_wit_tag :
    (finished .ok image [.assetTag (List.replicate 11 0#8) 11]).buf.get? 0 = some 0#8 ∧
    11 ≤ 11 ∧ 10 < 11 ∧ (image.get? 0).isSome = true ∧
    ∀ i, i < 10 → image.get? (7 + i) =
      [0x53#8, 0x4E#8, 0x30#8, 0x30#8, 0x30#8, 0x31#8, 0x32#8, 0x33#8, 0x34#8, 0x20#8][i]? := by decide
theorem test_wit_twice : ∃ t u, step (finished .ok image [.macAddress, .macAddress]) = .next t ∧ step t = .next u :=
  ⟨_, _, rfl, rfl⟩
theorem test_wit_early : ({ State.reset with host := [.readErr] } : State).done = false ∧
    ({ State.reset with host := [.assetTag [0#8] 1] } : State).done = false ∧
    ({ State.reset with host := [.readErr] } : State).inFlight = none ∧
    (finished .timeout [] [.readErr]).done = true ∧ (finished .timeout [] [.readErr]).inFlight = none := by decide
theorem test_read_err : (nextOf (step (finished .timeout [] [.readErr]))).map (·.replies) =
    some [.errCode .timeout] := by decide

/-- A buffer whose first `n` bytes are stored. -/
def stored : Nat → Mem
  | 0 => []
  | n + 1 => Mem.set (stored n) n 0x00#8

theorem test_stored_filled (n : Nat) : filledBelow n (stored n) := by
  induction n with
  | zero => intro i hi; omega
  | succ n ih => exact filled_set _ ih
theorem test_stored_wf (n : Nat) (h : n ≤ 256) : (stored n).wf = true := by
  induction n with
  | zero => rfl
  | succ n ih => exact Mem.wf_set _ _ _ (ih (by omega)) (by simp only [Config.eepromSize]; omega)

/-- A block that has ended a LOAD, with a full buffer after success. -/
theorem test_wit_finished (k : Kind) (m : Mem) (h : List HostMove) (hm : m.wf = true)
    (hk : (k = .ok ∧ filledBelow 256 m) ∨ (k = .timeout ∧ m = [])) : Inv (finished k m h) where
  cfgWf := test_std_wf
  bufWf := hm
  doneIff := by simp [finished]
  errStored := by rcases hk with ⟨rfl, _⟩ | ⟨rfl, _⟩ <;> simp [finished]
  errPending := fun hb => by cases hb
  remainingLe := by show (0#9 : BitVec 9).toNat ≤ 256; decide
  remainingPos := by intro h; cases h <;> contradiction
  pollLe := by rcases hk with ⟨rfl, _⟩ | ⟨rfl, _⟩ <;> simp [finished]
  pollLt := fun hp => absurd hp (by simp [finished, pollPhases])
  subPoll := fun _ => rfl
  subRcv := fun hp => by cases hp
  windowHeld := fun hb => by cases hb
  windowAligned := by intro b hb; cases hb; rfl
  flight := by intro w hw; cases hw
  remainingEnd := fun _ _ => rfl
  pollFailed := fun _ he => if_neg he
  controlEnd := fun _ => rfl
  filledLoop := by intro h; cases h <;> contradiction
  filledEnd := by
    intro _ he
    rcases hk with ⟨_, hf⟩ | ⟨rfl, _⟩
    · exact hf
    · cases he
  unknownBefore := fun hp => absurd (by simp [finished, loadedPhases]) hp
  unknownAhead := by intro h; cases h <;> contradiction
  unknownFailed := by
    intro _ he
    rcases hk with ⟨rfl, _⟩ | ⟨_, hm⟩
    · exact absurd rfl he
    · exact hm
theorem test_inv_ending (k : Kind) (m : Mem) (hm : m.wf = true)
    (hk : (k = .ok ∧ filledBelow 256 m) ∨ k = .timeout) : Inv (ending k m) where
  cfgWf := test_std_wf
  bufWf := hm
  doneIff := by simp [ending, at']; rfl
  errStored := by rcases hk with ⟨rfl, _⟩ | rfl <;> simp [ending]
  errPending := fun _ h => absurd rfl h
  remainingLe := by show (0#9 : BitVec 9).toNat ≤ 256; decide
  remainingPos := by intro h; cases h <;> contradiction
  pollLe := by rcases hk with ⟨rfl, _⟩ | rfl <;> simp [ending]
  pollLt := fun hp => absurd hp (by simp [ending, at', pollPhases])
  subPoll := fun _ => rfl
  subRcv := fun hp => by cases hp
  windowHeld := fun _ h => by cases h
  windowAligned := by intro b hb; cases hb; rfl
  flight := by intro w hw; cases hw
  remainingEnd := fun _ _ => rfl
  pollFailed := fun _ he => if_neg he
  controlEnd := fun _ => rfl
  filledLoop := by intro h; cases h <;> contradiction
  filledEnd := by
    intro _ he
    rcases hk with ⟨_, hf⟩ | rfl
    · exact hf
    · cases he
  unknownBefore := fun hp => absurd (by simp [ending, at', loadedPhases]) hp
  unknownAhead := by intro h; cases h <;> contradiction
  unknownFailed := fun hp => by cases hp
theorem test_wit_ending : Inv (ending .ok (stored 256)) ∧ Inv (ending .timeout [(0, 1#8)]) ∧
    (∃ t, step (ending .ok (stored 256)) = .next t ∧ t.phase = .done) ∧
    ∃ t, step (ending .timeout [(0, 1#8)]) = .next t ∧ t.phase = .done :=
  ⟨test_inv_ending _ _ (test_stored_wf 256 (by decide)) (.inl ⟨rfl, test_stored_filled 256⟩),
    test_inv_ending _ _ rfl (.inr rfl), ⟨_, rfl, rfl⟩, ⟨_, rfl, rfl⟩⟩
theorem test_wit_frozen : Inv (finished .ok (stored 256) [.macAddress]) ∧
    (finished .ok (stored 256) [.macAddress]).done = true ∧ (finished .ok (stored 256) [.macAddress]).err = .ok ∧
    Inv (finished .timeout [] [.macAddress]) ∧ (finished .timeout [] [.macAddress]).err ≠ .ok ∧
    (∀ rest, (finished .ok (stored 256) [.macAddress]).host ≠ .loadStart :: rest) ∧
    (∀ rest, (finished .ok (stored 256) [.macAddress]).host ≠ .reset :: rest) ∧
    ∃ t, step (finished .ok (stored 256) [.macAddress]) = .next t :=
  ⟨test_wit_finished _ _ _ (test_stored_wf 256 (by decide)) (.inl ⟨rfl, test_stored_filled 256⟩), rfl, rfl,
    test_wit_finished _ _ _ rfl (.inr ⟨rfl, rfl⟩), by decide, fun _ h => by simp [finished] at h,
    fun _ h => by simp [finished] at h, _, rfl⟩
theorem test_wit_load_start : ({ at' .rcv .poll with host := [.loadStart] } : State).phase ≠ .idle ∧
    ({ at' .rcv .poll with host := [.loadStart] } : State).phase ≠ .done ∧
    ({ State.reset with host := [.loadStart] } : State).phase = .idle ∧ State.reset.window ≠ none := by decide
theorem test_wit_detach : ({ State.reset with window := none, host := [.attach 8] } : State).window = none ∧
    8 % 4 = 0 ∧ ({ at' .rcv .poll with host := [.detach] } : State).window ≠ none := by decide
theorem test_wit_reset : ({ at' .rcv .poll with host := [.reset] } : State).inFlight = none ∧
    ({ at' .rcv .poll with host := [.reset] } : State).host = .reset :: [] := by decide

theorem test_wit_init : atLoadStart (at' .initDisable .poll) ∧ (at' .initDisable .poll).cfg.wf = true ∧
    (at' .initDisable .poll).window ≠ none := ⟨⟨rfl, rfl, rfl⟩, by decide, by decide⟩

theorem test_wit_timeout : ∃ (s : State) (answers rest : List Word), s.phase ∈ pollPhases ∧ s.sub = .poll ∧
    s.pollCnt = 0#17 ∧ s.inFlight = none ∧ s.host = [] ∧ s.window ≠ none ∧ s.env = .oracle (answers ++ rest) ∧
    answers.length = 100000 ∧ ∀ v ∈ answers, v &&& awaited s.cfg s.phase = 0#32 := by
  refine ⟨answering (List.replicate 100000 0#32 ++ []) (at' .selW .poll), List.replicate 100000 0#32, [],
    List.mem_cons_self, rfl, rfl, rfl, rfl, (fun h => nomatch h), rfl, List.length_replicate, ?_⟩
  intro v hv
  rw [List.eq_of_mem_replicate hv]
  rfl
theorem test_wit_slow_poll : ∃ (s : State) (answers rest : List Word) (w : Word), s.phase ∈ pollPhases ∧
    s.env = .oracle (answers ++ w :: rest) ∧ s.sub = .poll ∧ s.pollCnt = 0#17 ∧ answers.length < 100000 ∧
    (∀ v ∈ answers, v &&& awaited s.cfg s.phase = 0#32) ∧ w &&& awaited s.cfg s.phase ≠ 0#32 ∧ s.inFlight = none ∧
    s.host = [] ∧ s.window ≠ none :=
  ⟨answering [0#32, 2#32, 1#32] (at' .selW .poll), [0#32, 2#32], [], 1#32, by decide, rfl, rfl, rfl, by simp,
    List.forall_mem_cons.2 ⟨rfl, List.forall_mem_cons.2 ⟨rfl, fun _ h => nomatch h⟩⟩, by decide, rfl, rfl, by decide⟩

theorem test_wit_load : Inv (at' .initDisable .poll) ∧ atLoadStart (at' .initDisable .poll) ∧
    (at' .initDisable .poll).phase.busy = true :=
  ⟨test_inv_load_start, ⟨rfl, rfl, rfl⟩, rfl⟩
theorem test_wit_load_double : Inv { at' .initDisable .poll with env := .double (dbl none) } ∧ (dbl none).stuck = none ∧
    (dbl (some 515)).stuck = some 515 ∧ Config.std.offPoll ≠ .rxdata :=
  ⟨test_inv_any_env _ _ test_inv_load_start, rfl, rfl, by decide⟩
theorem test_wit_load_device : Inv (withDev (dev .idle) (at' .initDisable .poll)) ∧ (dev .idle).present = true ∧
    (dev .idle).lag = [] ∧ ({ dev .idle with present := false } : Device).present = false :=
  ⟨test_inv_any_env _ _ test_inv_load_start, rfl, rfl, rfl⟩
theorem test_wit_device_inv : DeviceInv (withDev (dev .idle) (at' .initDisable .poll)) (dev .idle) where
  present := rfl
  pollReg := by decide
  disabled := by decide
  enabled := by decide
  afterSelW := by intro h; contradiction
  atOffset := by intro h; contradiction
  atSelR := by intro h; contradiction
  atReq := by intro h; contradiction
  atRcv := by intro h; contradiction
  stored := by intro h; cases h <;> contradiction
  storedAll := by intro h; cases h <;> contradiction
  clockLow := by intro h; exact absurd h (by decide)
  clockHigh := by intro h; exact absurd h (by decide)
  hold := by intro h; exact absurd h (by decide)
  final := by intro h; contradiction

end Sys2Proof.Tests
end

section
/-! No step writes the configuration, so the machine that holds it in its state runs as the machine that takes it as a
parameter (R7, R23; log entry 1). -/

namespace Sys2Proof.Machine

/-! The configuration is constant. -/

theorem PhaseStep.cfg_eq {s t : State} (h : PhaseStep s t) : t.cfg = s.cfg := by
  cases h <;> subst t <;> rfl

theorem hostDoes_took_cfg {m : HostMove} {s t : State} (h : hostDoes m s = .took t) : t.cfg = s.cfg := by
  rcases hostDoes_took h with ⟨_, _, _, _, rfl⟩ | ⟨_, _, rfl⟩ | ⟨_, rfl⟩ | ⟨_, rfl⟩ | ⟨_, _, rfl⟩ <;> rfl

/-- Whoever's turn it is, the controller's, the block's or the host's, a step keeps the configuration. -/
theorem step_cfg {s t : State} (h : step s = .next t) : t.cfg = s.cfg := by
  rcases step_next h with ⟨_, _, _, hd, hc⟩ | ⟨_, hs, _, hp⟩ | ⟨_, _, rest, _, hm⟩
  · obtain ⟨e, rfl⟩ := exec_command_next (decodeCommand_isCommand hd) hc
    rfl
  · exact (phase_next (s := { s with host := hs }) hp).cfg_eq
  · exact hostDoes_took_cfg (s := { s with host := rest }) hm

theorem runSteps_cfg {n : Nat} {s t : State} (h : runSteps n s = .next t) : t.cfg = s.cfg := by
  induction n generalizing s with
  | zero => cases h; rfl
  | succ n ih =>
    obtain ⟨u, hu, ht⟩ := thenDo_next.1 h
    exact (ih ht).trans (step_cfg hu)

/-! The two machines. -/

theorem State.toBlock_under (s : State) : s.toBlock.under s.cfg = s := rfl

/-- A run of the machine under a configuration is the run of these steps, without the configuration: the state after a
step is its block under the configuration the run began with. -/
theorem coreUnder_run (c : Config) (base n : Nat) (b : Block) :
    (coreUnder c base).run n b = blockOutcome (runSteps n (b.under c)) := by
  induction n generalizing b with
  | zero => rfl
  | succ n ih =>
    rw [runSteps_succ]
    cases h : step (b.under c) with
    | next t =>
      have hc : t.cfg = c := step_cfg h
      have ht : t.toBlock.under c = t := by rw [← hc, t.toBlock_under]
      have hrun : (coreUnder c base).run n t.toBlock = blockOutcome (runSteps n t) := by rw [ih, ht]
      exact (core_run_next (coreUnder c base) n b t.toBlock (congrArg blockOutcome h)).trans hrun
    | fault x => exact core_run_fault (coreUnder c base) n b x (congrArg blockOutcome h)
    | refused x => exact core_run_refused (coreUnder c base) n b x (congrArg blockOutcome h)

/-- Settles O57: the run by induction on the number of steps, the configuration by its frame. -/
theorem configurationIsAParameter : Obligations.ConfigurationIsAParameter := fun c base n b =>
  ⟨coreUnder_run c base n b, fun _ => runSteps_cfg⟩

end Sys2Proof.Machine
end

section
/-! The decoder reads back every code of the encoder. -/

namespace Sys2Proof

/-! The fields of a command word. -/

/-- Under masks above [7:0] a format A or D word shows its flag (R71, R72). -/
theorem flag_or_payload_and {f m : Word} (b : Byte) (hf : f &&& m = f) (hm : m &&& 0xFF#32 = 0#32) :
    (f ||| b.setWidth 32) &&& m = f := by
  have hb : b.setWidth 32 &&& m = 0#32 := by
    have h : b.setWidth 32 &&& 0xFF#32 = b.setWidth 32 := by revert b; decide
    rw [← h, BitVec.and_assoc, BitVec.and_comm _ m, hm, BitVec.and_zero]
  rw [BitVec.and_comm, BitVec.and_or_distrib_left, BitVec.and_comm m f, BitVec.and_comm m, hf, hb, BitVec.or_zero]

/-- Below bit 8 a format A or D word shows its payload (R71, R72). -/
theorem extract_flag_or_payload {f : Word} (hf : f &&& 0xFF#32 = 0#32) (b : Byte) {i n : Nat} (h : i + n ≤ 8) :
    (f ||| b.setWidth 32).extractLsb' i n = b.extractLsb' i n := by
  have low : ∀ k < 8, f.getLsbD k = false := by
    intro k hk
    have hk' : (0xFF#32).getLsbD k = true := by revert k; decide
    simpa [hk'] using congrArg (·.getLsbD k) hf
  ext j hj
  have h32 : i + j < 32 := by omega
  simp only [BitVec.getElem_extractLsb', BitVec.getLsbD_or, BitVec.getLsbD_setWidth, low (i + j) (by omega), h32,
    decide_true, Bool.true_and, Bool.false_or]

/-- Reading a format A word gives its address back (R73). -/
theorem addressWord_address {c : Config} {f : Word} (hf : f &&& 0xFF#32 = 0#32) (a : BitVec 7) (d : Dir) :
    (addressWord c f a d).extractLsb' 1 7 = a := by
  rw [addressWord, extract_flag_or_payload hf _ (by decide)]
  generalize c.dirBit d = x
  revert a x; decide

/-- Reading a format A word gives its direction back, the two directions having different bits (R7, R73). -/
theorem wordDir_addressWord {c : Config} {f : Word} (hf : f &&& 0xFF#32 = 0#32) (hd : c.dirWrite ≠ c.dirRead)
    (a : BitVec 7) (d : Dir) : wordDir c (addressWord c f a d) = d := by
  have h : (addressWord c f a d).extractLsb' 0 1 = c.dirBit d := by
    rw [addressWord, extract_flag_or_payload hf _ (by decide)]
    generalize c.dirBit d = x
    revert a x; decide
  unfold wordDir
  rw [h]
  cases d
  · simp [Config.dirBit]
  · simp [Config.dirBit, hd.symm]

/-- Reading a format D word gives its byte back (R73). -/
theorem dataWord_byte {f : Word} (hf : f &&& 0xFF#32 = 0#32) (b : Byte) : (dataWord f b).extractLsb' 0 8 = b := by
  rw [dataWord, extract_flag_or_payload hf b (by decide)]
  simp

/-! What R7 says of the masks. -/

/-- The bits of the three flags. -/
def Config.flagBits (c : Config) : Word := c.cmdStart ||| c.cmdRstart ||| c.cmdStop

theorem flagMask_iff {m : Word} : flagMask m = true ↔ m ≠ 0#32 ∧ m &&& 0xFF#32 = 0#32 := by
  simp [flagMask]

/-- The mask constraints of R7 that the decoder rests on. -/
structure MasksApart (c : Config) : Prop where
  start : flagMask c.cmdStart = true
  rstart : flagMask c.cmdRstart = true
  stop : flagMask c.cmdStop = true
  stopStart : c.cmdStop &&& c.cmdStart = 0#32
  stopRstart : c.cmdStop &&& c.cmdRstart = 0#32
  dirs : c.dirWrite ≠ c.dirRead

theorem Config.wf_masksApart {c : Config} (h : c.wf = true) : MasksApart c := by
  simp only [Config.wf, Config.masksWf, Bool.and_eq_true, beq_iff_eq, bne_iff_ne] at h
  obtain ⟨⟨⟨⟨_, ⟨⟨⟨hs, hr⟩, hp⟩, hps⟩, hpr⟩, hd⟩, _⟩, _⟩ := h
  exact ⟨hs, hr, hp, hps, hpr, hd⟩

/-- Masks that share no bit differ, where one of them has a bit. -/
theorem ne_of_and_eq_zero {p m : Word} (h : p &&& m = 0#32) (hm : m ≠ 0#32) : m ≠ p := by
  rintro rfl
  exact hm (by simpa using h)

theorem flag_and_flagBits {c : Config} {f : Word} (hf : f ∈ [c.cmdStart, c.cmdRstart, c.cmdStop]) :
    f &&& c.flagBits = f := by
  ext i hi
  simp only [List.mem_cons, List.not_mem_nil, or_false] at hf
  rcases hf with rfl | rfl | rfl
  all_goals
    simp only [Config.flagBits, BitVec.getElem_and, BitVec.getElem_or]
    grind

/-- The bits of the three flags lie above [7:0]. -/
theorem MasksApart.flagBits_low {c : Config} (h : MasksApart c) : c.flagBits &&& 0xFF#32 = 0#32 := by
  rw [Config.flagBits, BitVec.and_comm, BitVec.and_or_distrib_left, BitVec.and_or_distrib_left]
  simp only [BitVec.and_comm (0xFF#32), (flagMask_iff.1 h.start).2, (flagMask_iff.1 h.rstart).2,
    (flagMask_iff.1 h.stop).2]
  decide

/-- A word made of flag bits and a payload has no bit outside the fields (R75). -/
theorem flag_or_payload_outside {f m : Word} (b : Byte) (hf : f &&& m = f) :
    (f ||| b.setWidth 32) &&& ~~~(m ||| 0xFF#32) = 0#32 := by
  have hb : b.setWidth 32 &&& 0xFF#32 = b.setWidth 32 := by revert b; decide
  rw [← hf, ← hb]
  ext i hi
  simp only [BitVec.getElem_and, BitVec.getElem_or, BitVec.getElem_not, BitVec.getElem_zero]
  grind

/-- A word that holds the flags `f` and no bit outside the fields (R71, R72). -/
structure Carries (c : Config) (w f : Word) : Prop where
  flags : w &&& c.flagBits = f
  outside : w &&& ~~~(c.flagBits ||| 0xFF#32) = 0#32

theorem MasksApart.carries {c : Config} (h : MasksApart c) {f : Word} (b : Byte) (hf : f &&& c.flagBits = f) :
    Carries c (f ||| b.setWidth 32) f :=
  ⟨flag_or_payload_and b hf h.flagBits_low, flag_or_payload_outside b hf⟩

/-! The decoder by the flags a word carries, in the order of its tests (R74). -/

section
variable {c : Config} {w : Word} {held : Bool}

theorem decodeForm_noFlag (h : Carries c w 0#32) : decodeForm c held w = .ok (.data (w.extractLsb' 0 8)) := by
  obtain ⟨hf, ho⟩ := h
  rw [Config.flagBits] at hf ho
  simp [decodeForm, hf, ho]

theorem decodeForm_stop (h : Carries c w c.cmdStop) (h0 : c.cmdStop ≠ 0#32) :
    decodeForm c held w = .ok (.dataStop (w.extractLsb' 0 8)) := by
  obtain ⟨hf, ho⟩ := h
  rw [Config.flagBits] at hf ho
  simp [decodeForm, hf, ho, h0]

theorem decodeForm_start (h : Carries c w c.cmdStart) (h0 : c.cmdStart ≠ 0#32) (hs : c.cmdStart ≠ c.cmdStop)
    (hr : c.cmdStart ≠ c.cmdRstart ∨ held = false) :
    decodeForm c held w = .ok (.start (w.extractLsb' 1 7) (wordDir c w)) := by
  obtain ⟨hf, ho⟩ := h
  rw [Config.flagBits] at hf ho
  simp [decodeForm, hf, ho, h0, hs, hr]

theorem decodeForm_rstart (h : Carries c w c.cmdRstart) (h0 : c.cmdRstart ≠ 0#32) (hs : c.cmdRstart ≠ c.cmdStop)
    (hr : c.cmdStart ≠ c.cmdRstart ∨ held = true) :
    decodeForm c held w = .ok (.rstart (w.extractLsb' 1 7) (wordDir c w)) := by
  obtain ⟨hf, ho⟩ := h
  have hn : ¬(c.cmdRstart = c.cmdStart ∧ (c.cmdStart ≠ c.cmdRstart ∨ held = false)) := by
    rintro ⟨e, h1 | h1⟩
    · exact h1 e.symm
    · rcases hr with h2 | h2
      · exact h2 e.symm
      · simp [h1] at h2
  rw [Config.flagBits] at hf ho
  simp only [decodeForm, hf, ho, ne_eq, not_true, if_false, h0, hs, if_true]
  rw [if_neg hn]
end

/-! Reading the encoder's words back. -/

section
variable {c : Config} (h : MasksApart c)
include h

theorem decodeForm_dataWord_noFlag (held : Bool) (b : Byte) : decodeForm c held (dataWord 0#32 b) = .ok (.data b) := by
  rw [decodeForm_noFlag (w := dataWord 0#32 b) (h.carries b BitVec.zero_and), dataWord_byte BitVec.zero_and]

theorem decodeForm_dataWord_stop (held : Bool) (b : Byte) :
    decodeForm c held (dataWord c.cmdStop b) = .ok (.dataStop b) := by
  obtain ⟨h0, hlow⟩ := flagMask_iff.1 h.stop
  rw [decodeForm_stop (w := dataWord c.cmdStop b) (h.carries b (flag_and_flagBits (by simp))) h0, dataWord_byte hlow]

/-- On an idle bus a START is read as one, whether or not its mask is that of REPEATED-START (R74). -/
theorem decodeForm_addressWord_start (a : BitVec 7) (d : Dir) :
    decodeForm c false (addressWord c c.cmdStart a d) = .ok (.start a d) := by
  obtain ⟨h0, hlow⟩ := flagMask_iff.1 h.start
  rw [decodeForm_start (w := addressWord c c.cmdStart a d) (h.carries _ (flag_and_flagBits (by simp))) h0
    (ne_of_and_eq_zero h.stopStart h0) (.inr rfl), addressWord_address hlow, wordDir_addressWord hlow h.dirs]

/-- On a held bus a REPEATED-START is read as one, whether or not its mask is that of START (R74). -/
theorem decodeForm_addressWord_rstart (a : BitVec 7) (d : Dir) :
    decodeForm c true (addressWord c c.cmdRstart a d) = .ok (.rstart a d) := by
  obtain ⟨h0, hlow⟩ := flagMask_iff.1 h.rstart
  rw [decodeForm_rstart (w := addressWord c c.cmdRstart a d) (h.carries _ (flag_and_flagBits (by simp))) h0
    (ne_of_and_eq_zero h.stopRstart h0) (.inr rfl), addressWord_address hlow, wordDir_addressWord hlow h.dirs]
end

/-- At its own site an emitted word is that site's instruction, whatever its general form (R76). -/
theorem decodeCommand_siteWord (c : Config) (x : Site) (held : Bool) :
    decodeCommand c ⟨some x, held⟩ (siteWord c x) = .ok x.instr := if_pos rfl

/-- Settles O1: the four general forms by the flags their words carry, the five emitted words by their sites, the phases by
their codes. -/
theorem decodeOfEncodeIsTheInstruction : Obligations.DecodeOfEncodeIsTheInstruction := by
  intro c i hc
  have h := Config.wf_masksApart hc
  cases i
  case start a d => exact decodeForm_addressWord_start h a d
  case rstart a d => exact decodeForm_addressWord_rstart h a d
  case data b => exact decodeForm_dataWord_noFlag h false b
  case dataStop b => exact decodeForm_dataWord_stop h false b
  case wSelW => exact decodeCommand_siteWord c .selW false
  case wOffset => exact decodeCommand_siteWord c .offset true
  case wSelR => exact decodeCommand_siteWord c .selR true
  case wCont => exact decodeCommand_siteWord c .cont true
  case wLast => exact decodeCommand_siteWord c .last true
  all_goals rfl

end Sys2Proof
end

section
/-! What no step changes, or only one step does: the configuration, the window, `buf`, the cells of the registers the block
does not use. -/

namespace Sys2Proof.Machine

/-! The window (R23, R56). -/

theorem PhaseStep.window_eq {s t : State} (h : PhaseStep s t) : t.window = s.window := by
  cases h <;> subst t <;> rfl

/-- Settles O10: the configuration by its frame, the window by whose turn it is; of the host's moves only attach and detach
write it. -/
theorem configurationIsConstant : Obligations.ConfigurationIsConstant := by
  refine ⟨fun s t h => ⟨step_cfg h, ?_⟩, fun _ => rfl⟩
  rcases step_next h with ⟨_, _, _, hd, hc⟩ | ⟨_, hs, _, hp⟩ | ⟨_, m, rest, hh, hm⟩
  · obtain ⟨e, rfl⟩ := exec_command_next (decodeCommand_isCommand hd) hc
    exact .inl rfl
  · exact .inl (phase_next (s := { s with host := hs }) hp).window_eq
  · rcases hostDoes_took hm with ⟨b, rfl, hw, hb, rfl⟩ | ⟨rfl, _, rfl⟩ | ⟨_, rfl⟩ | ⟨_, rfl⟩ | ⟨_, _, rfl⟩
    · exact .inr (.inl ⟨b, rest, hh, hw, hb, rfl⟩)
    · exact .inr (.inr ⟨rest, hh, rfl⟩)
    all_goals exact .inl rfl

/-! The buffer (R18, R19). -/

theorem written_buf (r : Reg) (v : Word) (e : Env) (s : State) : (written r v e s).buf = s.buf := by
  simp [written]

theorem pollRead_buf {p : Phase} {mask : Word} {s t : State} (h : pollRead p mask s = .next t) : t.buf = s.buf := by
  obtain ⟨_, v, e, _, rfl⟩ := pollRead_next.1 h
  rfl

theorem pollWait_buf (p : Phase) (s : State) : (pollWait p s).buf = s.buf := by
  rcases pollWait_cases p s with ⟨_, h⟩ | ⟨_, h⟩ <;> rw [h] <;> rfl

/-- A sending phase leaves `buf` alone, where what follows it does. -/
theorem sendPhase_buf {p : Phase} {w : Word} {f : State → State} {s t : State} (h : sendPhase p w f s = .next t)
    (hf : ∀ u, (f u).buf = u.buf) : t.buf = s.buf := by
  rcases sendPhase_next h with ⟨_, h1⟩ | ⟨_, rfl⟩ | ⟨_, u, hu, rfl⟩ | ⟨_, rfl⟩
  · exact pollRead_buf h1
  · exact pollWait_buf p s
  · obtain ⟨_, e, _, rfl⟩ := regWrite_next.1 hu
    exact written_buf _ _ e s
  · exact hf _

/-- A phase of one register write leaves `buf` alone, where what follows the write does. -/
theorem write_then_buf {r : Reg} {v : Word} {f : State → State} {s t : State}
    (h : thenDo (regWrite r v s) (fun u => .next (f u)) = .next t) (hf : ∀ u, (f u).buf = u.buf) : t.buf = s.buf := by
  obtain ⟨_, e, _, rfl⟩ := write_then_next h
  rw [hf, written_buf]

/-- The transfer of `RCV` stores one byte at an index of the buffer, the other steps of `RCV` store none (R141). -/
theorem recvPhase_buf {s t : State} (h : recvPhase s = .next t) : t.buf = s.buf ∨
    (s.sub = .xfer ∧ ∃ i v, bufIndex s.remaining = some i ∧ t.buf = s.buf.set i (lowByte v)) := by
  rcases recvPhase_next h with ⟨_, h1⟩ | ⟨_, rfl⟩ | ⟨hs, i, v, u, hi, hr, rfl⟩
  · exact .inl (pollRead_buf h1)
  · exact .inl (pollWait_buf _ s)
  · obtain ⟨_, e, _, rfl⟩ := regRead_ok.1 hr
    exact .inr ⟨hs, i, v, hi, by rw [storeByte_eq]; rfl⟩

/-- The waiting phases leave `buf` alone, but for the start of a LOAD (R19). -/
theorem awaitStart_buf {s t : State} (h : awaitStart s = .next t) :
    t.buf = s.buf ∨ (t.buf = [] ∧ ∃ rest, s.host = .loadStart :: rest) := by
  rcases awaitStart_next h with rfl | ⟨rest, hh, _, rfl⟩
  · exact .inl rfl
  · exact .inr ⟨rfl, rest, hh⟩

/-- What an instruction can do to `buf`: keep it, store one byte (`RCV`), or leave no byte known (the start of a LOAD and the
end of a failed one). -/
theorem exec_buf {i : Instr} {s t : State} (h : exec i s = .next t) : t.buf = s.buf ∨
    (i = .rcv ∧ s.sub = .xfer ∧ ∃ k v, bufIndex s.remaining = some k ∧ t.buf = s.buf.set k (lowByte v)) ∨
    (t.buf = [] ∧ ((i = .finDisable ∧ s.err ≠ .ok) ∨
      ((i = .idle ∨ i = .done) ∧ ∃ rest, s.host = .loadStart :: rest))) := by
  by_cases hi : isCommand i = true
  · obtain ⟨e, rfl⟩ := exec_command_next hi h
    exact .inl rfl
  cases i
  case idle => exact (awaitStart_buf h).imp_right fun ⟨h1, h2⟩ => .inr ⟨h1, .inr ⟨.inl rfl, h2⟩⟩
  case done => exact (awaitStart_buf h).imp_right fun ⟨h1, h2⟩ => .inr ⟨h1, .inr ⟨.inr rfl, h2⟩⟩
  case rcv => exact (recvPhase_buf h).imp_right fun ⟨h1, h2⟩ => .inl ⟨rfl, h1, h2⟩
  case finDisable =>
    obtain ⟨_, e, _, rfl⟩ := write_then_next h
    by_cases he : s.err = .ok
    · left; simp [he, written]
    · right; right; simp [he, written]
  case initSettle => cases h; exact .inl rfl
  case selW | offset | selR | req =>
    simp only [exec, execSelW, execOffset, execSelR, execReq] at h
    exact .inl (sendPhase_buf h fun _ => rfl)
  case initDisable | initClklow | initClkhigh | initHold | initAck | initEnable | preAck =>
    exact .inl (write_then_buf h fun _ => rfl)
  all_goals exact absurd rfl hi

/-- Of the host's moves only the reset event changes `buf`, of which no byte is known then (R43). -/
theorem hostDoes_took_buf {m : HostMove} {s t : State} (h : hostDoes m s = .took t) :
    t.buf = s.buf ∨ (m = .reset ∧ t.buf = []) := by
  rcases hostDoes_took h with ⟨_, _, _, _, rfl⟩ | ⟨_, _, rfl⟩ | ⟨_, rfl⟩ | ⟨rfl, rfl⟩ | ⟨_, _, rfl⟩
  case inr.inr.inr.inl => exact .inr ⟨rfl, rfl⟩
  all_goals exact .inl rfl

theorem Phase.instr_inj {p q : Phase} : p.instr = q.instr ↔ p = q := by
  cases p <;> cases q <;> decide

/-- Settles O26: by what an instruction does to `buf`, the host's moves leaving it alone but for the reset event. -/
theorem onlyRcvWritesBuf : Obligations.OnlyRcvWritesBuf := by
  constructor
  · intro s t h
    rcases step_next h with ⟨_, _, _, hd, hc⟩ | ⟨hf, hs, hh, hp⟩ | ⟨hf, m, rest, hh, hm⟩
    · obtain ⟨e, rfl⟩ := exec_command_next (decodeCommand_isCommand hd) hc
      exact .inl rfl
    · rcases exec_buf hp with h1 | ⟨hi, hx, _⟩ | ⟨hb, ⟨hi, he⟩ | ⟨hi, rest, hr⟩⟩
      · exact .inl h1
      · exact .inr (.inl ⟨hf, (Phase.instr_inj (q := .rcv)).1 hi, hx⟩)
      · exact .inr (.inr ⟨hb, hf, .inl ⟨(Phase.instr_inj (q := .finDisable)).1 hi, he⟩⟩)
      · have hp : s.phase = .idle ∨ s.phase = .done :=
          hi.imp (Phase.instr_inj (q := .idle)).1 (Phase.instr_inj (q := .done)).1
        have hq : hs = s.host := hh.resolve_right fun hb => by rcases hp with e | e <;> simp [e, Phase.busy] at hb
        exact .inr (.inr ⟨hb, hf, .inr (.inl ⟨rest, hq ▸ hr, hp⟩)⟩)
    · rcases hostDoes_took_buf hm with hb | ⟨rfl, hb⟩
      · exact .inl hb
      · exact .inr (.inr ⟨hb, hf, .inr (.inr ⟨rest, hh⟩)⟩)
  · intro i s t h
    exact (exec_buf h).imp_right (Or.imp_left fun ⟨hi, hx, _⟩ => ⟨hi, hx⟩)

/-- Settles O14: a byte is stored only at an index of the buffer. -/
theorem bufStaysCanonical : Obligations.BufStaysCanonical := by
  have hexec : ∀ {i : Instr} {s t : State}, s.buf.wf = true → exec i s = .next t → t.buf.wf = true := by
    intro i s t hw h
    rcases exec_buf h with hb | ⟨_, _, k, v, hk, hb⟩ | ⟨hb, _⟩ <;> rw [hb]
    · exact hw
    · obtain ⟨h1, _, rfl⟩ := (bufIndex_some _ _).1 hk
      exact Mem.wf_set _ _ _ hw (by simp only [Config.eepromSize]; omega)
    · rfl
  intro s t hw h
  rcases step_next h with ⟨_, _, _, _, hc⟩ | ⟨_, _, _, hp⟩ | ⟨_, _, _, _, hm⟩
  · exact hexec hw hc
  · exact hexec (by exact hw) hp
  · rcases hostDoes_took_buf hm with hb | ⟨_, hb⟩ <;> rw [hb]
    · exact hw
    · rfl

theorem lowByte_eq (v : Word) : lowByte v = v.setWidth 8 := by
  simp only [lowByte]
  ext i hi
  simp

/-- Settles O25: a read at the stored index gives the stored byte, at any other index what was there. -/
theorem rcvChangesOneByteOfBuf : Obligations.RcvChangesOneByteOfBuf := by
  intro s t hx h
  rcases recvPhase_next h with ⟨hs, _⟩ | ⟨hs, _⟩ | ⟨_, i, v, u, hi, hr, rfl⟩
  · cases hx.symm.trans hs
  · cases hx.symm.trans hs
  · obtain ⟨_, _, rfl⟩ := (bufIndex_some _ _).1 hi
    obtain ⟨_, e, _, rfl⟩ := regRead_ok.1 hr
    rw [storeByte_eq]
    exact ⟨v, rfl, lowByte_eq v ▸ Mem.get?_set_same _ _ _, fun j hj => Mem.get?_set_other _ _ _ _ hj⟩

/-! Registers (R34, R36 to R38). -/

/-- The registers the block writes, and received-data (R31 to R33, R35, R39 to R41). -/
def usedRegs : List Reg := [.cmd, .rxdata, .ctrl, .isr, .scllow, .sclhigh, .sdahold]

theorem unused_of_mem {r : Reg} (h : r ∈ [Reg.ien, .status, .txlvl, .rxlvl]) : r ∉ usedRegs := by
  revert r; decide

/-- What a step can do at the registers: nothing, with no read and no write, or one access of a register the block uses or of
the poll register. -/
def OneAccess (s t : State) : Prop :=
  (t.regs = s.regs ∧ (t.trace = s.trace ∨ ∃ us, t.trace = s.trace ++ [.d us])) ∨
  ∃ r v ev, (r ∈ usedRegs ∨ r = s.cfg.offPoll) ∧ t.regs = s.regs.set r v ∧ t.trace = s.trace ++ [ev] ∧
    (ev = .w (s.cfg.off r) v ∨ ev = .r (s.cfg.off r) v)

theorem writeRows_used {c : Config} {p q : Phase} {r : Reg} {v : Word} (h : (p, r, v, q) ∈ writeRows c) :
    r ∈ usedRegs := by
  simp only [writeRows, List.mem_cons, Prod.mk.injEq, List.not_mem_nil, or_false] at h
  rcases h with h | h | h | h | h | h | h | h <;> obtain ⟨_, rfl, _⟩ := h <;> decide

theorem PhaseStep.oneAccess {s t : State} (h : PhaseStep s t) : OneAccess s t := by
  cases h <;> subst t
  case waits | begins => exact .inl ⟨rfl, .inl rfl⟩
  case settles | fails | counts | moves => exact .inl ⟨rfl, .inr ⟨_, rfl⟩⟩
  case writes r v q e hr _ _ => exact .inr ⟨r, v, _, .inl (writeRows_used hr), rfl, rfl, .inl rfl⟩
  case polls v e _ => exact .inr ⟨_, v, _, .inr rfl, rfl, rfl, .inr rfl⟩
  case sends x e _ _ => exact .inr ⟨.cmd, _, _, .inl (by decide), rfl, rfl, .inl rfl⟩
  case stores v e _ => exact .inr ⟨.rxdata, v, _, .inl (by decide), rfl, rfl, .inr rfl⟩

theorem step_oneAccess {s t : State} (h : step s = .next t) : OneAccess s t := by
  rcases step_next h with ⟨_, _, _, hd, hc⟩ | ⟨_, hs, _, hp⟩ | ⟨_, m, rest, _, hm⟩
  · obtain ⟨e, rfl⟩ := exec_command_next (decodeCommand_isCommand hd) hc
    exact .inl ⟨rfl, .inl rfl⟩
  · exact (phase_next (s := { s with host := hs }) hp).oneAccess
  · rcases hostDoes_took hm with ⟨_, _, _, _, rfl⟩ | ⟨_, _, rfl⟩ | ⟨_, rfl⟩ | ⟨_, rfl⟩ | ⟨_, _, rfl⟩
    all_goals exact .inl ⟨rfl, .inl rfl⟩

/-- Settles O9: a step accesses at most one register, none of the four unless polls read it, and distinct registers lie at
distinct offsets. -/
theorem untouchedRegistersKeepTheirValue : Obligations.UntouchedRegistersKeepTheirValue := by
  intro s t r h hr hpoll
  rcases step_oneAccess h with ⟨hg, ht⟩ | ⟨q, v, ev, hq, hg, ht, hev⟩ <;> rw [hg]
  · refine ⟨rfl, fun ev hev _ => ?_⟩
    rcases ht with ht | ⟨us, ht⟩
    · simp [ht] at hev
    · obtain rfl : Event.d us = ev := by simpa [ht] using hev
      simp
  · have hne : r ≠ q := by
      rintro rfl
      exact hq.elim (unused_of_mem hr) hpoll
    refine ⟨Regs.get_set_other _ _ _ _ hne, fun ev' hev' hc => ?_⟩
    obtain rfl : ev = ev' := by simpa [ht] using hev'
    have hoff : s.cfg.off q ≠ s.cfg.off r := fun e => hne ((off_inj hc).1 e).symm
    rcases hev with rfl | rfl <;> simp [hoff]

end Sys2Proof.Machine
end

section
/-! The turns of a step, forwards: what the command in flight, a move of the host and the phase make of it. -/

namespace Sys2Proof.Machine

section
variable {s t : State} {m : HostMove} {rest : List HostMove}

/-- A step with a command in flight runs what the command is decoded to (R110). -/
theorem step_command {w : Word} {i : Instr} (hw : s.inFlight = some w)
    (hd : decodeCommand s.cfg s.context w = .ok i) : step s = exec i s := by
  simp only [step, hostTurn_flight s w hw, fetch, hw, decode, hd]

theorem hostTurn_move (hf : s.inFlight = none) (hh : s.host = m :: rest) :
    hostTurn s = hostDoes m { s with host := rest } := by
  simp only [hostTurn, hf, hh]

theorem step_took (hf : s.inFlight = none) (hh : s.host = m :: rest)
    (h : hostDoes m { s with host := rest } = .took t) : step s = .next t := by
  simp only [step, hostTurn_move hf hh, h]

theorem step_stop {x : Refusal} (hf : s.inFlight = none) (hh : s.host = m :: rest)
    (h : hostDoes m { s with host := rest } = .stop x) : step s = .refused x := by
  simp only [step, hostTurn_move hf hh, h]

/-- After a move that leaves the step to the block, the step is that of the phase. -/
theorem step_pass (hf : s.inFlight = none) (hh : s.host = m :: rest)
    (h : hostDoes m { s with host := rest } = .pass t) : step s = exec t.phase.instr t := by
  have ht : t.inFlight = none := by
    rcases hostDoes_pass h with ⟨_, _, rfl⟩ | ⟨_, _, rfl⟩ <;> exact hf
  simp only [step, hostTurn_move hf hh, h, fetch_phase t ht]
end

theorem Phase.busy_eq_false {p : Phase} : p.busy = false ↔ p = .idle ∨ p = .done := by
  cases p <;> decide

theorem Phase.busy_eq_true {p : Phase} : p.busy = true ↔ p ≠ .idle ∧ p ≠ .done := by
  cases p <;> decide

/-- Settles O6: the command in flight, the phase, and the two readings of a quiet move. -/
theorem stepRunsDecodedInstruction : Obligations.StepRunsDecodedInstruction := by
  have hphase : ∀ {s : State} {k : Context} {i : Instr},
      decode s.cfg k (.phase s.phase.code) = .ok i → s.phase.instr = i := by
    intro s k i hd
    simpa only [decode_phase, Except.ok.injEq] using hd
  intro s
  refine ⟨fun w i hw hd => step_command hw hd, fun i hf hh hd => ?_, fun i rest hf hh h1 h2 hd => ?_,
    fun rest hf hh hp => ?_⟩
  · rw [step_phase s hf hh, hphase hd]
  · have hb : s.phase.busy = true := Phase.busy_eq_true.2 ⟨h1, h2⟩
    rw [step_pass hf hh (if_pos hb), hphase hd]
  · have hb : s.phase.busy = false := Phase.busy_eq_false.2 hp
    exact step_took hf hh (by simp only [hostDoes, hb]; rfl)

/-! `load_start` (R126, R128, R143). -/

/-- A waiting phase that finds a `load_start` begins a LOAD, where the window is mapped. -/
theorem awaitStart_begins {s : State} {rest : List HostMove} (hh : s.host = .loadStart :: rest) (hw : s.window ≠ none) :
    awaitStart s = .next { s with
      host := rest, done := false, err := .ok, buf := [], phase := .initDisable, sub := .poll } := by
  obtain ⟨b, hb⟩ := Option.ne_none_iff_exists'.1 hw
  simp only [awaitStart, hh, beginLoad, hb]
  rfl

theorem awaitStart_waits {s : State} (hh : ∀ rest, s.host ≠ .loadStart :: rest) : awaitStart s = .next s := by
  unfold awaitStart
  split
  · exact absurd (by assumption) (hh _)
  · rfl

/-- Settles O19: both waiting phases are the wait for `load_start`. -/
theorem waitingPhasesAwaitLoadStart : Obligations.WaitingPhasesAwaitLoadStart := by
  rintro s i (rfl | rfl)
  all_goals exact ⟨fun _ hh hw => awaitStart_begins hh hw, awaitStart_waits⟩

/-- Settles O42: while a LOAD runs the move is refused, else the waiting phase takes it in the same step. -/
theorem loadStartOnlyWhenNotLoading : Obligations.LoadStartOnlyWhenNotLoading := by
  intro s rest hf hh
  refine ⟨fun h1 h2 => ?_, fun hp hw => ?_⟩
  · exact step_stop hf hh (if_pos (Phase.busy_eq_true.2 ⟨h1, h2⟩))
  · have hb : ¬s.phase.busy = true := by rw [Phase.busy_eq_false.2 hp]; decide
    rw [step_pass hf hh (if_neg hb), ← hh]
    rcases hp with e | e
    all_goals
      simp only [e, Phase.instr]
      exact awaitStart_begins hh hw

/-! Reads by the host (R19, R150, R170). -/

/-- Settles O41: the host's reads, each by the test of `done` it makes. -/
theorem earlyReadsAreRefused : Obligations.EarlyReadsAreRefused := by
  intro s m rest hf hh
  refine ⟨fun hd hm => step_stop hf hh ?_, fun hm => step_took hf hh ?_, fun hd hm => step_took hf hh ?_⟩
  · rcases hm with rfl | rfl | ⟨out, cap, rfl⟩
    all_goals exact if_neg (by simp [hd])
  · subst hm; rfl
  · subst hm; exact if_pos hd

/-- Settles O56: the guard of the one read of `buf`, and the bytes a successful LOAD has stored. -/
theorem onlyAFinishedLoadIsReadable : Obligations.OnlyAFinishedLoadIsReadable := by
  refine fun s i => ⟨fun h => if_neg ?_, fun hi hd he hlt => ?_⟩
  · rintro ⟨hd, he⟩
    rcases h with h | h
    · simp [hd] at h
    · exact h he
  · obtain ⟨b, hb⟩ := Option.isSome_iff_exists.1 (hi.filledEnd (.inr (hi.doneIff.1 hd)) he i hlt)
    exact ⟨b, hb, by simp [State.bufByte, hd, he, hb]⟩

/-! The end of a LOAD (R142). -/

theorem hostDoes_took_phase {m : HostMove} {s t : State} (h : hostDoes m s = .took t) :
    t.phase = s.phase ∨ t.phase = .idle := by
  rcases hostDoes_took h with ⟨_, _, _, _, rfl⟩ | ⟨_, _, rfl⟩ | ⟨_, rfl⟩ | ⟨_, rfl⟩ | ⟨_, _, rfl⟩
  case inr.inr.inr.inl => exact .inr rfl
  all_goals exact .inl rfl

/-- The only way into `DONE` is the disabling write of `FIN_DISABLE`. -/
theorem PhaseStep.enters_done {s t : State} (h : PhaseStep s t) (hs : s.phase ≠ .done) (ht : t.phase = .done) :
    s.phase = .finDisable ∧ ∃ e, t = { s with
      phase := .done, sub := .poll, done := true, buf := if s.err ≠ .ok then [] else s.buf, env := e,
      regs := { s.regs with ctrl := 0#32 }, trace := s.trace ++ [.w s.cfg.offCtrl 0#32] } := by
  cases h <;> subst t
  case writes r v q e hr _ _ =>
    obtain rfl : q = .done := ht
    obtain ⟨hp, rfl, rfl⟩ : s.phase = .finDisable ∧ r = .ctrl ∧ v = 0#32 := by simpa [writeRows] using hr
    exact ⟨hp, e, by simp [Regs.set, Config.off]⟩
  case moves q hq =>
    obtain rfl : q = .done := ht
    simp [settleRows] at hq
  case stores =>
    simp only at ht
    split at ht <;> cases ht
  case waits | polls | counts | sends => exact absurd ht hs
  case begins | settles | fails => cases ht

/-- Settles O58: only the write of `FIN_DISABLE` enters `DONE`; the rest is what the invariant says of that phase. -/
theorem endOfALoad : Obligations.EndOfALoad := by
  intro s t hi h hs ht
  rcases step_next h with ⟨_, _, _, hd, hc⟩ | ⟨_, hs', _, hp⟩ | ⟨_, m, rest, _, hm⟩
  · obtain ⟨e, rfl⟩ := exec_command_next (decodeCommand_isCommand hd) hc
    exact absurd ht hs
  · obtain ⟨hf, e, rfl⟩ := (phase_next (s := { s with host := hs' }) hp).enters_done hs ht
    exact ⟨hf, rfl, rfl, rfl, rfl, rfl, hi.remainingEnd (.inl hf), hi.pollFailed (.inl hf), rfl, rfl⟩
  · rcases hostDoes_took_phase hm with hp | hp
    · exact absurd (hp.symm.trans ht) hs
    · cases hp.symm.trans ht

end Sys2Proof.Machine
end

section
/-! The invariant of the block: the state after reset meets it, and every step keeps it. -/

namespace Sys2Proof.Machine

/-! The invariant by the part of a LOAD the block is in. -/

/-- The configuration, the canonical form of `buf` and the ranges (R7, R12, R18, R56). -/
structure Ranges (s : State) : Prop where
  cfgWf : s.cfg.wf = true
  bufWf : s.buf.wf = true
  remainingLe : s.remaining.toNat ≤ 256
  pollLe : s.pollCnt.toNat ≤ 100000
  windowAligned : ∀ b, s.window = some b → b % 4 = 0

theorem Inv.ranges {s : State} (h : Inv s) : Ranges s :=
  ⟨h.cfgWf, h.bufWf, h.remainingLe, h.pollLe, h.windowAligned⟩

theorem Inv.done_eq_false {s : State} (hi : Inv s) (hp : s.phase ≠ .done) : s.done = false := by
  cases h : s.done
  · rfl
  · exact absurd (hi.doneIff.1 h) hp

/-- The block at the first sub-phase of a phase, with no command in flight and no LOAD done. -/
structure Enters (s : State) : Prop where
  sub : s.sub = .poll
  notDone : s.done = false
  flight : s.inFlight = none

/-- Before the loop of a LOAD, or waiting for the first one: no byte is known. -/
theorem inv_before_loop {t : State} (h : Ranges t) (hn : Enters t) (hp : t.phase ∉ loadedPhases) (hb : t.buf = [])
    (he : t.err = .ok ∨ t.err = .timeout)
    (hbusy : t.phase ≠ .idle → t.err = .ok ∧ t.window ≠ none)
    (hc : t.phase ∈ pollPhases → t.pollCnt.toNat < 100000) : Inv t := by
  obtain ⟨h1, h2, h3, h4⟩ :
      t.phase ≠ .req ∧ t.phase ≠ .rcv ∧ t.phase ≠ .finDisable ∧ t.phase ≠ .done := by
    simpa [loadedPhases] using hp
  have hb' : t.phase.busy = true → t.phase ≠ .idle := fun hb => (Phase.busy_eq_true.1 hb).1
  exact {
    h with
    doneIff := by simp [hn.notDone, h4]
    errStored := he
    errPending := fun hb _ => (hbusy (hb' hb)).1
    remainingPos := by simp [h1, h2]
    pollLt := hc
    subPoll := fun _ => hn.sub
    subRcv := by simp [h2]
    windowHeld := fun hb => (hbusy (hb' hb)).2
    flight := by simp [hn.flight]
    filledLoop := by simp [h1, h2]
    filledEnd := by simp [h3, h4]
    remainingEnd := by simp [h3, h4]
    pollFailed := by simp [h3, h4]
    controlEnd := by simp [h4]
    unknownBefore := fun _ => hb
    unknownAhead := by simp [h1, h2]
    unknownFailed := by simp [h4] }

/-- In the loop: the bytes below `256 - remaining` are stored and no others (R14, R141). -/
theorem inv_in_loop {t : State} (h : Ranges t) (hn : Enters t) (hp : t.phase = .req ∨ t.phase = .rcv)
    (he : t.err = .ok) (hw : t.window ≠ none) (hc : t.pollCnt.toNat < 100000) (h1 : 1 ≤ t.remaining.toNat)
    (hfill : filledBelow (256 - t.remaining.toNat) t.buf)
    (hrest : ∀ i, 256 - t.remaining.toNat ≤ i → t.buf.get? i = none) : Inv t := by
  obtain ⟨hload, h3, h4⟩ : t.phase ∈ loadedPhases ∧ t.phase ≠ .finDisable ∧ t.phase ≠ .done := by
    rcases hp with e | e <;> rw [e] <;> decide
  exact {
    h with
    doneIff := by simp [hn.notDone, h4]
    errStored := .inl he
    errPending := fun _ _ => he
    remainingPos := fun _ => h1
    pollLt := fun _ => hc
    subPoll := fun _ => hn.sub
    subRcv := by simp [hn.sub]
    windowHeld := fun _ => hw
    flight := by simp [hn.flight]
    filledLoop := fun _ => hfill
    filledEnd := by simp [h3, h4]
    remainingEnd := by simp [h3, h4]
    pollFailed := by simp [h3, h4]
    controlEnd := by simp [h4]
    unknownBefore := fun hq => absurd hload hq
    unknownAhead := fun _ => hrest
    unknownFailed := by simp [h4] }

/-- At the end of a LOAD, before the disabling write (R45). -/
theorem inv_ending {t : State} (h : Ranges t) (hn : Enters t) (hp : t.phase = .finDisable) (hw : t.window ≠ none)
    (he : (t.err = .ok ∧ t.remaining = 0#9 ∧ filledBelow 256 t.buf) ∨ (t.err = .timeout ∧ t.pollCnt = 100000#17)) :
    Inv t :=
  { h with
    doneIff := by simp [hn.notDone, hp]
    errStored := he.imp And.left And.left
    errPending := fun _ hq => absurd hp hq
    remainingPos := by simp [hp]
    pollLt := by simp [hp, pollPhases]
    subPoll := fun _ => hn.sub
    subRcv := by simp [hp]
    windowHeld := fun _ => hw
    flight := by simp [hn.flight]
    filledLoop := by simp [hp]
    filledEnd := by grind
    remainingEnd := by grind
    pollFailed := by grind
    controlEnd := by simp [hp]
    unknownBefore := by simp [hp, loadedPhases]
    unknownAhead := by simp [hp]
    unknownFailed := by simp [hp] }

/-- Inside a polling phase: another sub-phase, another count below the bound, and a command in flight only right after its
phase has written it. -/
theorem Inv.within_poll {s : State} (hi : Inv s) (hp : s.phase ∈ pollPhases) {q : Sub} {n : BitVec 17} {e : Env}
    {g : Regs} {f : Option Word} {tr : List Event} {d : Nat} (hq : s.phase = .rcv → q ≠ .settle) (hn : n.toNat < 100000)
    (hf : ∀ w, f = some w → q = .settle ∧ ∃ x, siteOf s.phase s.remaining = some x ∧ w = siteWord s.cfg x) :
    Inv { s with sub := q, pollCnt := n, env := e, regs := g, inFlight := f, trace := tr, draws := d } := by
  obtain ⟨_, hfin, hdone⟩ := busy_of_poll hp
  exact {
    hi with
    pollLe := hn.le
    pollLt := fun _ => hn
    subPoll := fun hq => absurd hp hq
    subRcv := hq
    flight := hf
    pollFailed := fun hq => absurd hq (by simp [hfin, hdone])
    controlEnd := fun hq => absurd hq hdone }

/-- What the controller and the host change outside the block: the environment, the command in flight once it is taken, the
host's list and replies, and the window. -/
theorem Inv.outside {s : State} (hi : Inv s) {w : Option Nat} {f : Option Word} {e : Env} {hs : List HostMove}
    {r : List Reply} (hw : s.phase.busy = true → w ≠ none) (ha : ∀ b, w = some b → b % 4 = 0)
    (hf : f = none ∨ f = s.inFlight) :
    Inv { s with env := e, inFlight := f, window := w, host := hs, replies := r } :=
  { hi with
    windowHeld := hw
    windowAligned := ha
    flight := fun v hv => hf.elim (fun h0 => by simp [h0] at hv) fun h0 => hi.flight v (h0 ▸ hv) }

/-! The steps of the block, row by row of R127. -/

/-- Of the single writes the last one ends the LOAD; the others stay before the loop, and the last of them enters a poll. -/
theorem writeRows_cases {c : Config} {p q : Phase} {r : Reg} {v : Word} (h : (p, r, v, q) ∈ writeRows c) :
    (p = .finDisable ∧ r = .ctrl ∧ v = 0#32 ∧ q = .done) ∨
    (p ∉ loadedPhases ∧ p.busy = true ∧ q ∉ loadedPhases ∧ q ≠ .idle ∧ (q ∈ pollPhases → q = .selW)) := by
  simp only [writeRows, List.mem_cons, Prod.mk.injEq, List.not_mem_nil, or_false] at h
  rcases h with h | h | h | h | h | h | h | h <;> obtain ⟨rfl, rfl, rfl, rfl⟩ := h
  case inr.inr.inr.inr.inr.inr.inr => exact .inl ⟨rfl, rfl, rfl, rfl⟩
  all_goals exact .inr (by decide)

/-- The bytes stored so far after the store of a pass, of which the count is down by one (R141). -/
theorem store_next {r : BitVec 9} {m : Mem} (v : Byte) (h1 : 1 ≤ r.toNat) (h2 : r.toNat ≤ 256)
    (hfill : filledBelow (256 - r.toNat) m) (hrest : ∀ i, 256 - r.toNat ≤ i → m.get? i = none) :
    (r - 1#9).toNat = r.toNat - 1 ∧ filledBelow (256 - (r - 1#9).toNat) (m.set (256 - r.toNat) v) ∧
      ∀ i, 256 - (r - 1#9).toNat ≤ i → (Mem.set m (256 - r.toNat) v).get? i = none := by
  have hr : (r - 1#9).toNat = r.toNat - 1 := by bv_omega
  have hn : 256 - (r.toNat - 1) = 256 - r.toNat + 1 := by omega
  rw [hr, hn]
  refine ⟨rfl, filled_set v hfill, fun i hi => ?_⟩
  rw [Mem.get?_set_other _ _ _ _ (by omega)]
  exact hrest i (by omega)

section
variable {s t : State} (hi : Inv s) (hf : s.inFlight = none)
include hi hf

/-- The start of a LOAD (R126). -/
theorem Inv.begins {rest : List HostMove} (hw : s.window ≠ none) : Inv { s with
    host := rest, done := false, err := .ok, buf := [], phase := .initDisable, sub := .poll } :=
  inv_before_loop { hi.ranges with bufWf := rfl } ⟨rfl, rfl, hf⟩ (by simp [loadedPhases]) rfl (.inl rfl)
    (fun _ => ⟨rfl, hw⟩) (by simp [pollPhases])

/-- The disabling write at the end of a LOAD (R142). -/
theorem Inv.ends (hp : s.phase = .finDisable) {e : Env} {tr : List Event} : Inv { s with
    phase := .done, sub := .poll, done := true, buf := if s.err ≠ .ok then [] else s.buf, env := e,
    regs := s.regs.set .ctrl 0#32, trace := tr } := by
  have hbuf : Mem.wf (if s.err ≠ .ok then [] else s.buf) = true := by
    split
    · rfl
    · exact hi.bufWf
  exact {
    hi.ranges with
    bufWf := hbuf
    doneIff := by simp
    errStored := hi.errStored
    errPending := fun hb => by cases hb
    remainingPos := by simp
    pollLt := by simp [pollPhases]
    subPoll := fun _ => rfl
    subRcv := by simp
    windowHeld := fun hb => by cases hb
    flight := by simp [hf]
    filledLoop := by simp
    filledEnd := fun _ he => by
      have hb : (if s.err ≠ .ok then [] else s.buf) = s.buf := if_neg fun h => h he
      exact (congrArg (filledBelow 256) hb).mpr (hi.filledEnd (.inl hp) he)
    remainingEnd := fun _ => hi.remainingEnd (.inl hp)
    pollFailed := fun _ => hi.pollFailed (.inl hp)
    controlEnd := fun _ => rfl
    unknownBefore := by simp [loadedPhases]
    unknownAhead := by simp
    unknownFailed := fun _ he => if_pos he }

/-- A single write (R129 to R134, R136, R142). -/
theorem Inv.writes {r : Reg} {v : Word} {q : Phase} {e : Env} {tr : List Event}
    (hr : (s.phase, r, v, q) ∈ writeRows s.cfg) : Inv { s with
      phase := q, sub := .poll, pollCnt := if q = .selW then 0#17 else s.pollCnt,
      done := decide (q = .done) || s.done, buf := if q = .done ∧ s.err ≠ .ok then [] else s.buf, env := e,
      regs := s.regs.set r v, trace := tr } := by
  rcases writeRows_cases hr with ⟨hp, rfl, rfl, rfl⟩ | ⟨hp, hbusy, hq, hidle, hpoll⟩
  · simpa using hi.ends hf hp
  · have hne : q ≠ .done ∧ s.phase ≠ .finDisable ∧ s.phase ≠ .done := by
      simp only [loadedPhases, List.mem_cons, not_or] at hp hq
      tauto
    have hc : (if q = .selW then 0#17 else s.pollCnt).toNat ≤ 100000 := by
      split
      · decide
      · exact hi.pollLe
    have hbuf : (if q = .done ∧ s.err ≠ .ok then [] else s.buf) = [] := by simp [hne.1, hi.unknownBefore hp]
    have herr := hi.errPending hbusy hne.2.1
    refine inv_before_loop { hi.ranges with bufWf := by rw [hbuf]; rfl, pollLe := hc } ⟨rfl, ?_, hf⟩ hq hbuf (.inl herr)
      (fun _ => ⟨herr, hi.windowHeld hbusy⟩) fun h => ?_
    · simp [hne.1, hi.done_eq_false hne.2.2]
    · simp [hpoll h]

/-- The delay after a command write (R137 to R140). -/
theorem Inv.moves {q : Phase} {tr : List Event} (hq : (s.phase, q) ∈ settleRows) : Inv { s with
    phase := q, sub := .poll, pollCnt := 0#17, remaining := if q = .req then 256#9 else s.remaining, trace := tr } := by
  have hpoll : s.phase ∈ pollPhases := by
    simp only [settleRows, List.mem_cons, Prod.mk.injEq, List.not_mem_nil, or_false] at hq
    rcases hq with h | h | h | h <;> simp [h.1, pollPhases]
  obtain ⟨hbusy, hfin, hdone⟩ := busy_of_poll hpoll
  have herr := hi.errPending hbusy hfin
  have hw := hi.windowHeld hbusy
  have hd := hi.done_eq_false hdone
  simp only [settleRows, List.mem_cons, Prod.mk.injEq, List.not_mem_nil, or_false] at hq
  rcases hq with ⟨hp, rfl⟩ | ⟨hp, rfl⟩ | ⟨hp, rfl⟩ | ⟨hp, rfl⟩
  case inr.inr.inl =>
    have hb : s.buf = [] := hi.unknownBefore (by rw [hp]; decide)
    exact inv_in_loop { hi.ranges with remainingLe := by simp, pollLe := by simp } ⟨rfl, hd, hf⟩ (.inl rfl) herr hw (by simp)
      (by simp) (fun i h => absurd h (by simp)) (fun i _ => by simp [hb, Mem.get?])
  case inr.inr.inr =>
    exact inv_in_loop { hi.ranges with pollLe := by simp } ⟨rfl, hd, hf⟩ (.inr rfl) herr hw (by simp)
      (hi.remainingPos (.inl hp)) (hi.filledLoop (.inl hp)) (hi.unknownAhead (.inl hp))
  all_goals
    exact inv_before_loop { hi.ranges with pollLe := by simp } ⟨rfl, hd, hf⟩ (by simp [loadedPhases])
      (hi.unknownBefore (by rw [hp]; decide))
      (.inl herr) (fun _ => ⟨herr, hw⟩) (fun _ => by simp)

/-- The transfer of `RCV` (R141). -/
theorem Inv.stores (hp : s.phase = .rcv) (h1 : 1 ≤ s.remaining.toNat) (h2 : s.remaining.toNat ≤ 256) {v : Word} {e : Env}
    {g : Regs} {tr : List Event} {d : Nat} : Inv { s with
      phase := if s.remaining = 1#9 then .finDisable else .req, sub := .poll, pollCnt := 0#17,
      remaining := s.remaining - 1#9, buf := s.buf.set (256 - s.remaining.toNat) (lowByte v), env := e,
      regs := g, trace := tr, draws := d } := by
  have hbusy : s.phase.busy = true := by rw [hp]; decide
  have herr := hi.errPending hbusy (by simp [hp])
  have hw := hi.windowHeld hbusy
  obtain ⟨hr, hfill, hrest⟩ := store_next (lowByte v) h1 h2 (hi.filledLoop (.inr hp)) (hi.unknownAhead (.inr hp))
  have hbuf : Mem.wf (s.buf.set (256 - s.remaining.toNat) (lowByte v)) = true :=
    Mem.wf_set _ _ _ hi.bufWf (by simp only [Config.eepromSize]; omega)
  have hd := hi.done_eq_false (by simp [hp])
  by_cases hlast : s.remaining = 1#9
  · have h0 : s.remaining - 1#9 = 0#9 := by rw [hlast]; rfl
    refine inv_ending { hi.ranges with bufWf := hbuf, remainingLe := ?_, pollLe := ?_ } ⟨rfl, hd, hf⟩ (if_pos hlast) hw
      (.inl ⟨herr, h0, ?_⟩)
    · simp [h0]
    · simp
    · simpa [h0] using hfill
  · have hpos : 1 ≤ (s.remaining - 1#9).toNat := by bv_omega
    refine inv_in_loop { hi.ranges with bufWf := hbuf, remainingLe := ?_, pollLe := ?_ } ⟨rfl, hd, hf⟩
      (.inl (if_neg hlast)) herr hw ?_ hpos hfill hrest
    · simp only [hr]; omega
    · simp
    · simp

end

/-- Only the sending phases emit a word (R76). -/
theorem siteOf_some {p : Phase} {r : BitVec 9} {x : Site} (h : siteOf p r = some x) : p ∈ sendPhases := by
  cases p <;> first | decide | cases h

/-- The reset event (R43, R185): the free values are in their ranges. -/
theorem Inv.reset {s : State} (hi : Inv s) (hf : s.inFlight = none) : Inv (resetEvent s) := by
  have hrem : (BitVec.ofNat 9 (Config.freeRemaining s.draws).val).toNat ≤ 256 := by
    have := (Config.freeRemaining s.draws).isLt
    simp only [BitVec.toNat_ofNat]
    omega
  have hcnt : (BitVec.ofNat 17 (Config.freePollCnt s.draws).val).toNat ≤ 100000 := by
    have := (Config.freePollCnt s.draws).isLt
    simp only [BitVec.toNat_ofNat]
    omega
  refine inv_before_loop ⟨hi.cfgWf, rfl, hrem, hcnt, hi.windowAligned⟩ ⟨rfl, rfl, hf⟩ (by simp [resetEvent, loadedPhases])
    rfl ?_ (fun h => absurd rfl h) (by simp [resetEvent, pollPhases])
  cases h : Config.freeErrSet s.draws <;> simp [resetEvent, h]

/-- Every step of the block keeps the invariant. -/
theorem PhaseStep.keeps_inv {s t : State} (h : PhaseStep s t) (hi : Inv s) (hf : s.inFlight = none) : Inv t := by
  cases h <;> subst t
  case waits => exact hi
  case begins rest _ hw => exact hi.begins hf hw
  case writes r v q e hr _ _ => exact hi.writes hf hr
  case settles hp =>
    have herr := hi.errPending (by rw [hp]; decide) (by simp [hp])
    exact inv_before_loop { hi.ranges with } ⟨rfl, hi.done_eq_false (by simp [hp]), hf⟩ (by simp [loadedPhases])
      (hi.unknownBefore (by rw [hp]; decide)) (.inl herr) (fun _ => ⟨herr, hi.windowHeld (by rw [hp]; decide)⟩)
      (by simp [pollPhases])
  case polls hp hs hw v e he =>
    refine hi.within_poll hp (fun _ => ?_) (hi.pollLt hp) (by simp [hf])
    split <;> simp
  case fails hp hs hc =>
    obtain ⟨hbusy, _, hdone⟩ := busy_of_poll hp
    exact inv_ending { hi.ranges with pollLe := by simp } ⟨rfl, hi.done_eq_false hdone, hf⟩ rfl (hi.windowHeld hbusy)
      (.inr ⟨rfl, rfl⟩)
  case counts hp hs hc =>
    have hlt := hi.pollLt hp
    refine hi.within_poll hp (fun _ => by simp) (by bv_omega) (by simp [hf])
  case sends hs hw x e hx he =>
    have hp : s.phase ∈ sendPhases := siteOf_some hx
    refine hi.within_poll (List.mem_append_left [Phase.rcv] hp) (fun h => ?_) (hi.pollLt ?_) ?_
    · rw [h] at hp; revert hp; decide
    · exact List.mem_append_left [Phase.rcv] hp
    · rintro w ⟨⟩
      exact ⟨rfl, x, hx, rfl⟩
  case moves hs q hq => exact hi.moves hf hq
  case stores hp hs hw h1 h2 v e he => exact hi.stores hf hp h1 h2

/-- Settles O12: the block's rows one by one, the controller and the host outside the block, and the reset event. -/
theorem stepKeepsInv : Obligations.StepKeepsInv := by
  intro s t hi h
  rcases step_next h with ⟨_, _, _, hd, hc⟩ | ⟨hf, hs, _, hp⟩ | ⟨hf, m, rest, _, hm⟩
  · obtain ⟨e, rfl⟩ := exec_command_next (decodeCommand_isCommand hd) hc
    exact hi.outside hi.windowHeld hi.windowAligned (.inl rfl)
  · exact (phase_next (s := { s with host := hs }) hp).keeps_inv
      (hi.outside hi.windowHeld hi.windowAligned (.inr rfl)) hf
  · have hout : Inv { s with host := rest } := hi.outside hi.windowHeld hi.windowAligned (.inr rfl)
    rcases hostDoes_took hm with ⟨b, _, _, hb, rfl⟩ | ⟨_, hbusy, rfl⟩ | ⟨a, rfl⟩ | ⟨_, rfl⟩ | ⟨_, _, rfl⟩
    · exact hi.outside (by simp) (by rintro _ ⟨⟩; exact hb) (.inr rfl)
    · exact hi.outside (fun h => by simp [show s.phase.busy = false from hbusy] at h) (by simp) (.inr rfl)
    · exact hi.outside hi.windowHeld hi.windowAligned (.inr rfl)
    · exact hout.reset hf
    · exact hout

/-! The state after reset. -/

theorem windowAt_aligned {base b : Nat} (h : windowAt base = some b) : b % 4 = 0 := by
  unfold windowAt at h
  split at h <;> cases h
  assumption

theorem resetWith_inv {c : Config} (base : Nat) (hc : c.wf = true) : Inv (State.resetWith c base) :=
  inv_before_loop ⟨hc, rfl, Nat.zero_le _, Nat.zero_le _, fun _ => windowAt_aligned⟩ ⟨rfl, rfl, rfl⟩
    (by simp [State.resetWith, Block.under, Block.reset, loadedPhases]) rfl (.inl rfl) (fun h => absurd rfl h)
    (by simp [State.resetWith, Block.under, Block.reset, pollPhases])

/-- The hazard rules hold before the first event: the block is in none of the phases they speak of (R190 to R195). -/
theorem resetWith_hazardInv (c : Config) (base : Nat) : HazardInv (State.resetWith c base) := by
  have hp : (State.resetWith c base).phase = .idle := rfl
  have ht : (State.resetWith c base).trace = [] := rfl
  constructor <;> simp [hp, ht, sendPhases, disabledPhases]

/-- Settles O11: `IDLE`, where no byte is known and no event has been made. -/
theorem resetMeetsTheInvariants : Obligations.ResetMeetsTheInvariants := fun c base hc =>
  ⟨resetWith_inv base hc, resetWith_hazardInv c base, rfl, rfl, rfl, fun _ => rfl⟩

end Sys2Proof.Machine
end

section
/-! Several steps of a LOAD, forwards: what the environment answers and absorbs, and the state the block goes to. -/

namespace Sys2Proof.Machine

/-! Runs. -/

theorem runSteps_trans {m n : Nat} {s u t : State} (h : runSteps m s = .next u) (h' : runSteps n u = .next t) :
    runSteps (m + n) s = .next t := by
  rw [runSteps_add, h]
  exact h'

theorem runSteps_cons {n : Nat} {s u t : State} (h : step s = .next u) (h' : runSteps n u = .next t) :
    runSteps (n + 1) s = .next t := by
  rw [runSteps_succ, h]
  exact h'

/-- The block runs alone: no command in flight, the host silent, the window mapped. -/
structure Alone (s : State) : Prop where
  flight : s.inFlight = none
  host : s.host = []
  window : s.window ≠ none

/-! Register accesses as one update. -/

theorem received_eq (r : Reg) (v : Word) (e : Env) (s : State) : received r v e s = { s with
    env := e, regs := s.regs.set r v, trace := s.trace ++ [.r (s.cfg.off r) v], draws := s.draws + 1 } := rfl

theorem written_eq {r : Reg} (hr : r ≠ .cmd) (v : Word) (e : Env) (s : State) : written r v e s = { s with
    env := e, regs := s.regs.set r v, trace := s.trace ++ [.w (s.cfg.off r) v] } := by
  rw [written, State.latch, if_neg hr]
  rfl

theorem written_cmd_eq (v : Word) (e : Env) (s : State) : written .cmd v e s = { s with
    env := e, inFlight := some v, regs := { s.regs with cmd := v }, trace := s.trace ++ [.w s.cfg.offCmd v] } := rfl

/-! One step of the block, forwards (R127). -/

section
variable {s : State} (ha : Alone s)
include ha

theorem step_alone : step s = exec s.phase.instr s := step_phase s ha.flight ha.host

/-- A poll read (R91). -/
theorem step_poll {v : Word} {e : Env} (hp : s.phase ∈ pollPhases) (hs : s.sub = .poll)
    (he : s.env.answer s.cfg s.draws s.cfg.offPoll = .ok (v, e)) : step s = .next { s with
      sub := if ready (awaited s.cfg s.phase) v then .xfer else .pollWait, env := e,
      regs := s.regs.set s.cfg.offPoll v, trace := s.trace ++ [.r (s.cfg.off s.cfg.offPoll) v],
      draws := s.draws + 1 } := by
  have hexec : exec s.phase.instr s = pollRead s.phase (awaited s.cfg s.phase) s := by
    simp only [pollPhases, List.mem_cons, List.not_mem_nil, or_false] at hp
    rcases hp with h | h | h | h | h <;>
      simp only [h, Phase.instr, exec, execSelW, execOffset, execSelR, execReq, execRcv, sendPhase, recvPhase, hs] <;> rfl
  rw [step_alone ha, hexec]
  exact pollRead_next.2 ⟨ha.window, v, e, he, by rw [received_eq]; rfl⟩

/-- A wait (R91, R142). -/
theorem step_pollWait (hp : s.phase ∈ pollPhases) (hs : s.sub = .pollWait) : step s = .next (pollWait s.phase s) := by
  rw [step_alone ha]
  simp only [pollPhases, List.mem_cons, List.not_mem_nil, or_false] at hp
  rcases hp with h | h | h | h | h <;>
    simp only [h, Phase.instr, exec, execSelW, execOffset, execSelR, execReq, execRcv, sendPhase, recvPhase, hs]

/-- A command write, of the word the phase emits (R99). -/
theorem step_send {x : Site} {e : Env} (hs : s.sub = .xfer) (hx : siteOf s.phase s.remaining = some x)
    (he : s.env.absorb s.cfg .cmd (siteWord s.cfg x) = .ok e) : step s = .next { s with
      sub := .settle, env := e, inFlight := some (siteWord s.cfg x), regs := { s.regs with cmd := siteWord s.cfg x },
      trace := s.trace ++ [.w s.cfg.offCmd (siteWord s.cfg x)] } := by
  have hexec : exec s.phase.instr s =
      thenDo (regWrite .cmd (siteWord s.cfg x) s) fun t => .next (t.goto s.phase .settle) := by
    have hp := siteOf_some hx
    simp only [sendPhases, List.mem_cons, List.not_mem_nil, or_false] at hp
    rcases hp with h | h | h | h <;> simp only [h, siteOf, Option.some.injEq] at hx <;> subst hx <;>
      simp only [h, Phase.instr, exec, execSelW, execOffset, execSelR, execReq, sendPhase, hs]
  rw [step_alone ha, hexec]
  exact thenDo_next.2 ⟨_, regWrite_next.2 ⟨ha.window, e, he, rfl⟩, by rw [written_cmd_eq]; rfl⟩

/-- The delay after a command write (R137 to R140). -/
theorem step_settle {q : Phase} (hs : s.sub = .settle) (hq : (s.phase, q) ∈ settleRows) : step s = .next { s with
    phase := q, sub := .poll, pollCnt := 0#17, remaining := if q = .req then 256#9 else s.remaining,
    trace := s.trace ++ [.d 1] } := by
  rw [step_alone ha]
  simp only [settleRows, List.mem_cons, Prod.mk.injEq, List.not_mem_nil, or_false] at hq
  rcases hq with ⟨h, rfl⟩ | ⟨h, rfl⟩ | ⟨h, rfl⟩ | ⟨h, rfl⟩ <;>
    simp only [h, Phase.instr, exec, execSelW, execOffset, execSelR, execReq, sendPhase, hs] <;> rfl

/-- The transfer of `RCV` (R141). -/
theorem step_store {v : Word} {e : Env} (hp : s.phase = .rcv) (hs : s.sub = .xfer) (h1 : 1 ≤ s.remaining.toNat)
    (h2 : s.remaining.toNat ≤ 256) (he : s.env.answer s.cfg s.draws .rxdata = .ok (v, e)) : step s = .next { s with
      phase := if s.remaining = 1#9 then .finDisable else .req, sub := .poll, pollCnt := 0#17,
      remaining := s.remaining - 1#9, buf := s.buf.set (256 - s.remaining.toNat) (lowByte v), env := e,
      regs := { s.regs with rxdata := v }, trace := s.trace ++ [.r s.cfg.offRxdata v], draws := s.draws + 1 } := by
  have hi : bufIndex s.remaining = some (256 - s.remaining.toNat) := (bufIndex_some _ _).2 ⟨h1, h2, rfl⟩
  have hr := regRead_ok.2 ⟨ha.window, e, he, rfl⟩
  rw [step_alone ha]
  simp only [hp, Phase.instr, exec, execRcv, recvPhase, hs, hi, hr, storeByte_eq, received_eq]
  rfl

/-- A single write (R129 to R134, R136, R142). -/
theorem step_write {r : Reg} {v : Word} {q : Phase} {e : Env} (hr : (s.phase, r, v, q) ∈ writeRows s.cfg)
    (he : s.env.absorb s.cfg r v = .ok e) : step s = .next { s with
      phase := q, sub := .poll, pollCnt := if q = .selW then 0#17 else s.pollCnt,
      done := decide (q = .done) || s.done, buf := if q = .done ∧ s.err ≠ .ok then [] else s.buf, env := e,
      regs := s.regs.set r v, trace := s.trace ++ [.w (s.cfg.off r) v] } := by
  have hw := regWrite_next.2 ⟨ha.window, e, he, rfl⟩
  rw [step_alone ha]
  simp only [writeRows, List.mem_cons, Prod.mk.injEq, List.not_mem_nil, or_false] at hr
  rcases hr with h | h | h | h | h | h | h | h <;> obtain ⟨hp, rfl, rfl, rfl⟩ := h
  case inr.inr.inr.inr.inr.inr.inr =>
    have hexec : exec s.phase.instr s =
        thenDo (regWrite .ctrl 0#32 s) fun t => .next (t.endLoad.goto .done .poll) := by rw [hp]; rfl
    rw [hexec, hw]
    by_cases hk : s.err = .ok <;> simp [thenDo, State.endLoad_eq, State.goto, written_eq, hk]
  all_goals
    rw [hp]
    exact thenDo_next.2 ⟨_, hw, by rw [written_eq (by decide)]; rfl⟩

end

/-! The controller takes an emitted word (R115 to R119). -/

/-- The environment after the controller took the word of a site. -/
def Env.take : Site → Env → Except Refusal Env
  | .selW, e => e.addressPhase Config.eepromAddr .w
  | .offset, e => e.dataPhase Config.eepromOffset false
  | .selR, e => e.addressPhase Config.eepromAddr .r
  | .cont, e => e.dataPhase 0#8 false
  | .last, e => e.dataPhase 0#8 true

theorem step_take {s : State} {x : Site} {e : Env} (hx : siteOf s.phase s.remaining = some x)
    (hf : s.inFlight = some (siteWord s.cfg x)) (he : s.env.take x = .ok e) :
    step s = .next { s with env := e, inFlight := none } := by
  rw [step_site s x hx hf]
  cases x
  case selW | selR => exact takeAddress_next.2 ⟨e, he, rfl⟩
  case offset | cont | last => exact takeData_next.2 ⟨e, he, rfl⟩

end Sys2Proof.Machine
end

section
/-! A LOAD up to its poll `k`, and a poll that fails: in every environment, given what it answers and absorbs. -/

namespace Sys2Proof.Machine

/-! A poll that never shows its bit (R91, R142). -/

/-- The answers to reads of the register `r` in a row, from the environment `e` to `e'`. -/
def Env.reads (c : Config) (r : Reg) : List Word → Env → Env → Prop
  | [], e, e' => e = e'
  | v :: vs, e, e' => ∃ u, (∀ n, e.answer c n r = .ok (v, u)) ∧ Env.reads c r vs u e'

/-- An environment that a read leaves as it finds it answers all further reads alike. -/
theorem Env.reads_replicate {c : Config} {r : Reg} {v : Word} {e e' : Env} (h : ∀ n, e.answer c n r = .ok (v, e'))
    (h' : ∀ n, e'.answer c n r = .ok (v, e')) (m : Nat) : Env.reads c r (List.replicate (m + 1) v) e e' := by
  induction m generalizing e with
  | zero => exact ⟨e', h, rfl⟩
  | succ m ih => exact ⟨e', h, ih h'⟩

/-- The events of not-ready reads of the poll register: each with its wait (R91). -/
def waits (c : Config) (vs : List Word) : List Event := vs.flatMap fun v => [.r (c.off c.offPoll) v, .d 1]

theorem pollWait_fails {p : Phase} {s : State} (h : s.pollCnt + 1#17 = 100000#17) : pollWait p s = { s with
    phase := .finDisable, sub := .poll, err := .timeout, pollCnt := 100000#17, trace := s.trace ++ [.d 1] } := by
  rcases pollWait_cases p s with ⟨_, e⟩ | ⟨hne, _⟩
  · rw [e, h]; rfl
  · exact absurd h hne

theorem pollWait_counts {p : Phase} {s : State} (h : s.pollCnt + 1#17 ≠ 100000#17) : pollWait p s = { s with
    phase := p, sub := .poll, pollCnt := s.pollCnt + 1#17, trace := s.trace ++ [.d 1] } := by
  rcases pollWait_cases p s with ⟨he, _⟩ | ⟨_, e⟩
  · exact absurd he h
  · rw [e]; rfl

section
variable {s : State} (ha : Alone s) (hp : s.phase ∈ pollPhases) (hs : s.sub = .poll) {v : Word} {e : Env}
  (he : s.env.answer s.cfg s.draws s.cfg.offPoll = .ok (v, e)) (hv : ready (awaited s.cfg s.phase) v = false)
include ha hp hs he hv

/-- A not-ready read and its wait (R91). -/
theorem runSteps_notReady : runSteps 2 s = .next (pollWait s.phase { s with
      sub := .pollWait, env := e, regs := s.regs.set s.cfg.offPoll v,
      trace := s.trace ++ [.r (s.cfg.off s.cfg.offPoll) v], draws := s.draws + 1 }) := by
  have h1 := step_poll ha hp hs he
  rw [hv] at h1
  refine runSteps_cons h1 ((runSteps_one _).trans ?_)
  exact step_pollWait ⟨ha.flight, ha.host, ha.window⟩ hp rfl

/-- At the bound they end the poll (R142). -/
theorem runSteps_fails (hc : s.pollCnt + 1#17 = 100000#17) : runSteps 2 s = .next { s with
    phase := .finDisable, sub := .poll, err := .timeout, pollCnt := 100000#17, env := e,
    regs := s.regs.set s.cfg.offPoll v, trace := s.trace ++ waits s.cfg [v], draws := s.draws + 1 } := by
  rw [runSteps_notReady ha hp hs he hv, pollWait_fails (by exact hc)]
  simp [waits]

/-- Below the bound the poll goes on. -/
theorem runSteps_counts (hc : s.pollCnt + 1#17 ≠ 100000#17) : runSteps 2 s = .next { s with
    sub := .poll, pollCnt := s.pollCnt + 1#17, env := e, regs := s.regs.set s.cfg.offPoll v,
    trace := s.trace ++ waits s.cfg [v], draws := s.draws + 1 } := by
  rw [runSteps_notReady ha hp hs he hv, pollWait_counts (by exact hc)]
  simp [waits]

end

/-- A poll whose reads up to the bound all show its bit clear takes the fail transition after exactly these reads, each with
its wait (R91, R142). -/
theorem poll_times_out {s : State} {vs : List Word} {e : Env} (ha : Alone s) (hp : s.phase ∈ pollPhases)
    (hs : s.sub = .poll) (hne : vs ≠ []) (hc : s.pollCnt.toNat + vs.length = 100000)
    (he : Env.reads s.cfg s.cfg.offPoll vs s.env e) (hv : ∀ v ∈ vs, ready (awaited s.cfg s.phase) v = false) :
    ∃ g, runSteps (2 * vs.length) s = .next { s with
      phase := .finDisable, sub := .poll, err := .timeout, pollCnt := 100000#17, env := e, regs := g,
      trace := s.trace ++ waits s.cfg vs, draws := s.draws + vs.length } := by
  induction vs generalizing s with
  | nil => exact absurd rfl hne
  | cons v vs ih =>
    obtain ⟨u, hu, hrest⟩ := he
    obtain ⟨hv1, hv2⟩ := List.forall_mem_cons.1 hv
    rw [List.length_cons] at hc
    rcases eq_or_ne vs [] with rfl | hne'
    · obtain rfl : u = e := hrest
      exact ⟨_, runSteps_fails ha hp hs (hu _) hv1 (by simp at hc; bv_omega)⟩
    · have hpos := List.length_pos_iff.2 hne'
      have hlt : s.pollCnt + 1#17 ≠ 100000#17 ∧ (s.pollCnt + 1#17).toNat + vs.length = 100000 := by
        generalize vs.length = n at hc hpos
        constructor <;> bv_omega
      have hone := runSteps_counts ha hp hs (hu _) hv1 hlt.1
      obtain ⟨g, hg⟩ := ih (s := { s with
        sub := .poll, pollCnt := s.pollCnt + 1#17, env := u, regs := s.regs.set s.cfg.offPoll v,
        trace := s.trace ++ waits s.cfg [v], draws := s.draws + 1 })
        ⟨ha.flight, ha.host, ha.window⟩ hp rfl hne' hlt.2 hrest hv2
      refine ⟨g, ?_⟩
      rw [List.length_cons, Nat.mul_succ, Nat.add_comm _ 2, runSteps_trans hone hg]
      simp [waits, Nat.add_assoc, Nat.add_comm 1]

/-! The polls of a LOAD, in order. -/

/-- The phase of poll `k` of a LOAD: one each for the three words of the selection, then two for each byte (R147). -/
def pollPhase (k : Nat) : Phase :=
  if k = 1 then .selW else if k = 2 then .offset else if k = 3 then .selR else if k % 2 = 0 then .req else .rcv

/-- The block stands where poll `k` of the LOAD that began in `s` begins, every earlier poll having succeeded at its first
read: what the trace has gained has the length and the counts of R147 and V5. -/
structure AtPoll (s : State) (k : Nat) (u : State) : Prop where
  alone : Alone u
  cfg : u.cfg = s.cfg
  phase : u.phase = pollPhase k
  sub : u.sub = .poll
  pollCnt : u.pollCnt = 0#17
  remaining : 4 ≤ k → u.remaining.toNat + bytesBefore k = 256
  trace : ∃ pre, u.trace = s.trace ++ pre ∧ pre.length = eventsBefore k ∧
    writesAt s.cfg.offCmd pre = commandsBefore k ∧ readsAt s.cfg.offRxdata pre = bytesBefore k

/-- The environment `e` shows the transmit bit at the first poll read, absorbs the word of the site `x` and becomes `e'` when
the controller takes it (R99). -/
def Env.sends (c : Config) (x : Site) (e e' : Env) : Prop :=
  ∃ v u w, (∀ n, e.answer c n c.offPoll = .ok (v, u)) ∧ ready c.txReady v = true ∧
    u.absorb c .cmd (siteWord c x) = .ok w ∧ w.take x = .ok e'

/-- The environment `e` shows the receive bit at the first poll read and becomes `e'` when received-data is read (R100). -/
def Env.receives (c : Config) (e e' : Env) : Prop :=
  ∃ v u b, (∀ n, e.answer c n c.offPoll = .ok (v, u)) ∧ ready c.rxReady v = true ∧
    ∀ n, u.answer c n .rxdata = .ok (b, e')

/-- A SEND whose poll is ready at once: poll read, command write, the controller's step and the delay (R99). -/
theorem runSteps_send {s : State} {x : Site} {q : Phase} {e : Env} (ha : Alone s) (hq : (s.phase, q) ∈ settleRows)
    (hs : s.sub = .poll) (hx : siteOf s.phase s.remaining = some x) (he : s.env.sends s.cfg x e) :
    ∃ v, runSteps 4 s = .next { s with
      phase := q, sub := .poll, pollCnt := 0#17, remaining := if q = .req then 256#9 else s.remaining, env := e,
      regs := { s.regs.set s.cfg.offPoll v with cmd := siteWord s.cfg x }, draws := s.draws + 1,
      trace := s.trace ++ [.r (s.cfg.off s.cfg.offPoll) v, .w s.cfg.offCmd (siteWord s.cfg x), .d 1] } := by
  obtain ⟨v, u, w, hread, hready, hw, htake⟩ := he
  have hp : s.phase ∈ sendPhases := siteOf_some hx
  have haw : awaited s.cfg s.phase = s.cfg.txReady := if_neg (by intro h; rw [h] at hp; revert hp; decide)
  have h1 := step_poll ha (List.mem_append_left [Phase.rcv] hp) hs (hread _)
  rw [haw, hready] at h1
  have h2 := step_send (s := { s with
    sub := .xfer, env := u, regs := s.regs.set s.cfg.offPoll v,
    trace := s.trace ++ [.r (s.cfg.off s.cfg.offPoll) v], draws := s.draws + 1 })
    ⟨ha.flight, ha.host, ha.window⟩ rfl hx hw
  refine ⟨v, runSteps_cons h1 (runSteps_cons h2 (runSteps_cons (step_take hx rfl htake) ?_))⟩
  rw [runSteps_one, step_settle (q := q) (by exact ⟨rfl, ha.host, ha.window⟩) rfl (by exact hq)]
  simp [ha.flight]

/-- A RECV whose poll is ready at once: poll read and data read (R100). -/
theorem runSteps_receive {s : State} {e : Env} (ha : Alone s) (hp : s.phase = .rcv) (hs : s.sub = .poll)
    (h1 : 1 ≤ s.remaining.toNat) (h2 : s.remaining.toNat ≤ 256) (he : s.env.receives s.cfg e) :
    ∃ v b, runSteps 2 s = .next { s with
      phase := if s.remaining = 1#9 then .finDisable else .req, sub := .poll, pollCnt := 0#17,
      remaining := s.remaining - 1#9, buf := s.buf.set (256 - s.remaining.toNat) (lowByte b), env := e,
      regs := { s.regs.set s.cfg.offPoll v with rxdata := b }, draws := s.draws + 2,
      trace := s.trace ++ [.r (s.cfg.off s.cfg.offPoll) v, .r s.cfg.offRxdata b] } := by
  obtain ⟨v, u, b, hread, hready, hdata⟩ := he
  have hstep := step_poll ha (by rw [hp]; decide) hs (hread _)
  rw [awaited, if_pos hp, hready] at hstep
  refine ⟨v, b, runSteps_cons hstep ?_⟩
  rw [runSteps_one, step_store (v := b) (e := e) (by exact ⟨ha.flight, ha.host, ha.window⟩) (by exact hp) rfl (by exact h1)
    (by exact h2) (hdata _)]
  simp

/-! From one poll to the next. -/

theorem writesAt_append (off : Nat) (a b : List Event) : writesAt off (a ++ b) = writesAt off a + writesAt off b :=
  List.countP_append

theorem readsAt_append (off : Nat) (a b : List Event) : readsAt off (a ++ b) = readsAt off a + readsAt off b :=
  List.countP_append

/-- Before the polls that await the transmit bit no byte is read, and each of them makes three events, one a command write
(R99, R147). -/
theorem before_send {k : Nat} (h1 : 1 ≤ k) (hk : k ≤ 3 ∨ k % 2 = 0) :
    eventsBefore (k + 1) = eventsBefore k + 3 ∧ commandsBefore (k + 1) = commandsBefore k + 1 ∧
      bytesBefore (k + 1) = bytesBefore k := by
  unfold eventsBefore commandsBefore bytesBefore
  split_ifs <;> omega

/-- The polls that await the receive bit make two events, one a read of received-data (R100, R147). -/
theorem before_receive {k : Nat} (h4 : 4 ≤ k) (hk : k % 2 = 1) :
    eventsBefore (k + 1) = eventsBefore k + 2 ∧ commandsBefore (k + 1) = commandsBefore k ∧
      bytesBefore (k + 1) = bytesBefore k + 1 := by
  unfold eventsBefore commandsBefore bytesBefore
  split_ifs <;> omega

theorem pollPhase_send {k : Nat} (h1 : 1 ≤ k) (hk : k ≤ 3 ∨ k % 2 = 0) :
    (pollPhase k, pollPhase (k + 1)) ∈ settleRows ∧ (pollPhase (k + 1) = .req ↔ k = 3) := by
  have h : k = 1 ∨ k = 2 ∨ k = 3 ∨ (4 ≤ k ∧ k % 2 = 0) := by omega
  rcases h with rfl | rfl | rfl | ⟨h4, hk⟩
  · decide
  · decide
  · decide
  · have ha : pollPhase k = .req := by unfold pollPhase; split_ifs <;> first | omega | rfl
    have hb : pollPhase (k + 1) = .rcv := by unfold pollPhase; split_ifs <;> first | omega | rfl
    rw [ha, hb]
    refine ⟨by decide, by simp; omega⟩

theorem pollPhase_receive {k : Nat} (h4 : 4 ≤ k) (hk : k % 2 = 1) :
    pollPhase k = .rcv ∧ pollPhase (k + 1) = .req := by
  unfold pollPhase
  split_ifs <;> first | omega | exact ⟨rfl, rfl⟩

/-- Where polls do not read received-data, a poll read is no data read (R7). -/
theorem off_poll_ne {c : Config} (hc : c.wf = true) (hr : c.offPoll ≠ .rxdata) : c.off c.offPoll ≠ c.offRxdata :=
  fun h => hr ((off_inj hc (q := .rxdata)).1 h)

section
variable {s u : State} {k : Nat} (hc : s.cfg.wf = true) (hr : s.cfg.offPoll ≠ .rxdata) (h : AtPoll s k u)
include hc hr h

/-- A poll that awaits the transmit bit, the word of its site and the way to the next poll. -/
theorem AtPoll.send {x : Site} {e : Env} (h1 : 1 ≤ k) (hk : k ≤ 3 ∨ k % 2 = 0)
    (hx : siteOf (pollPhase k) u.remaining = some x) (he : u.env.sends s.cfg x e) :
    ∃ t, runSteps 4 u = .next t ∧ AtPoll s (k + 1) t ∧ t.env = e := by
  obtain ⟨hrow, hreq⟩ := pollPhase_send h1 hk
  obtain ⟨hev, hcmd, hby⟩ := before_send h1 hk
  obtain ⟨v, hrun⟩ := runSteps_send h.alone (h.phase ▸ hrow) h.sub (h.phase ▸ hx) (h.cfg ▸ he)
  obtain ⟨pre, htr, hlen, hw, hrd⟩ := h.trace
  refine ⟨_, hrun, ⟨⟨h.alone.flight, h.alone.host, h.alone.window⟩, h.cfg, rfl, rfl, rfl, fun h4 => ?_,
    pre ++ _, by rw [htr, List.append_assoc], ?_, ?_, ?_⟩, rfl⟩
  · rw [hby]
    by_cases h3 : k = 3
    · subst h3
      simp [hreq.2 rfl, bytesBefore]
    · simpa [mt hreq.1 h3] using h.remaining (by omega)
  · simp [hlen, hev]
  · rw [writesAt_append, hw, hcmd]
    simp [writesAt, h.cfg]
  · rw [readsAt_append, hrd, hby]
    simp [readsAt, h.cfg, off_poll_ne hc hr]

/-- A poll that awaits the receive bit, but for the last one, the byte and the way to the next poll. -/
theorem AtPoll.receive {e : Env} (h4 : 4 ≤ k) (hk : k % 2 = 1) (hlast : k < 515) (he : u.env.receives s.cfg e) :
    ∃ t, runSteps 2 u = .next t ∧ AtPoll s (k + 1) t ∧ t.env = e := by
  obtain ⟨hp, hq⟩ := pollPhase_receive h4 hk
  obtain ⟨hev, hcmd, hby⟩ := before_receive h4 hk
  have hrem := h.remaining h4
  have hle : bytesBefore k ≤ 254 := by unfold bytesBefore; split_ifs <;> omega
  have hne : u.remaining ≠ 1#9 := by rintro e; simp [e] at hrem; omega
  obtain ⟨v, b, hrun⟩ := runSteps_receive h.alone (h.phase.trans hp) h.sub (by omega) (by omega) (h.cfg ▸ he)
  obtain ⟨pre, htr, hlen, hw, hrd⟩ := h.trace
  refine ⟨_, hrun, ⟨⟨h.alone.flight, h.alone.host, h.alone.window⟩, h.cfg, ?_, rfl, rfl, fun _ => ?_,
    pre ++ _, by rw [htr, List.append_assoc], ?_, ?_, ?_⟩, rfl⟩
  · simp [hne, hq]
  · simp only [hby]; bv_omega
  · simp [hlen, hev]
  · rw [writesAt_append, hw, hcmd]
    simp [writesAt]
  · rw [readsAt_append, hrd, hby]
    simp [readsAt, h.cfg, off_poll_ne hc hr]

end

end Sys2Proof.Machine
end

section
/-! A LOAD that fails at poll `k`: under E1 with a stuck poll, under E2 without a device. -/

namespace Sys2Proof.Machine

/-! INIT and the second acknowledge. -/

/-- The environment absorbs these writes in a row and goes from `e` to `e'`. -/
def Env.absorbs (c : Config) : List (Reg × Word) → Env → Env → Prop
  | [], e, e' => e = e'
  | (r, v) :: ws, e, e' => ∃ u, e.absorb c r v = .ok u ∧ Env.absorbs c ws u e'

/-- The writes of a LOAD before its first poll (R98, R136). -/
def initWrites (c : Config) : List (Reg × Word) :=
  [(.ctrl, 0#32), (.scllow, 500#32), (.sclhigh, 500#32), (.sdahold, 30#32), (.isr, 0xFFFFFFFF#32), (.ctrl, c.ctrlEnable),
    (.isr, 0xFFFFFFFF#32)]

/-- In `n` steps the block has gone from `s` to the start of phase `q`, alone still, the environment being `e` and the trace
longer by `evs`. -/
structure Went (s : State) (n : Nat) (q : Phase) (e : Env) (evs : List Event) (t : State) : Prop where
  run : runSteps n s = .next t
  alone : Alone t
  cfg : t.cfg = s.cfg
  phase : t.phase = q
  sub : t.sub = .poll
  pollCnt : q ∈ pollPhases → t.pollCnt = 0#17
  env : t.env = e
  trace : t.trace = s.trace ++ evs

section
variable {s t : State} {n : Nat} {p : Phase} {e : Env} {evs : List Event} (h : Went s n p e evs t)
include h

theorem Went.write {r : Reg} {v : Word} {e' : Env} (q : Phase) (hr : (p, r, v, q) ∈ writeRows s.cfg)
    (hq : q ∈ pollPhases → q = .selW) (he : e.absorb s.cfg r v = .ok e') :
    ∃ u, Went s (n + 1) q e' (evs ++ [.w (s.cfg.off r) v]) u := by
  have hstep := step_write h.alone (h.phase ▸ h.cfg ▸ hr) (h.env ▸ h.cfg ▸ he)
  refine ⟨_, runSteps_trans h.run ((runSteps_one t).trans hstep),
    ⟨h.alone.flight, h.alone.host, h.alone.window⟩, h.cfg, rfl, rfl, fun hp => if_pos (hq hp), rfl, ?_⟩
  simp [h.trace, h.cfg]

theorem Went.settle (hp : p = .initSettle) : ∃ u, Went s (n + 1) .preAck e (evs ++ [.d 10]) u := by
  have hstep : step t = .next ((delay 10 t).goto .preAck .poll) := by
    rw [step_alone h.alone, h.phase, hp]
    rfl
  refine ⟨_, runSteps_trans h.run ((runSteps_one t).trans hstep),
    ⟨h.alone.flight, h.alone.host, h.alone.window⟩, h.cfg, rfl, rfl, fun hp => ?_, h.env, ?_⟩
  · exact absurd hp (by decide)
  · simp [h.trace]

end

/-- Where the environment absorbs the writes, a LOAD comes to its first poll in eight steps (R98, R136). -/
theorem runSteps_init {s : State} {e : Env} (hc : s.cfg.wf = true) (ha : Alone s) (hp : s.phase = .initDisable)
    (hs : s.sub = .poll) (he : Env.absorbs s.cfg (initWrites s.cfg) s.env e) :
    ∃ t, runSteps 8 s = .next t ∧ AtPoll s 1 t ∧ t.env = e := by
  obtain ⟨_, a1, _, a2, _, a3, _, a4, _, a5, _, a6, _, a7, rfl⟩ := he
  have w0 : Went s 0 .initDisable s.env [] s :=
    ⟨rfl, ha, rfl, hp, hs, fun h => absurd h (by decide), rfl, by simp⟩
  obtain ⟨_, w1⟩ := w0.write .initClklow (by simp [writeRows]) (by decide) a1
  obtain ⟨_, w2⟩ := w1.write .initClkhigh (by simp [writeRows]) (by decide) a2
  obtain ⟨_, w3⟩ := w2.write .initHold (by simp [writeRows]) (by decide) a3
  obtain ⟨_, w4⟩ := w3.write .initAck (by simp [writeRows]) (by decide) a4
  obtain ⟨_, w5⟩ := w4.write .initEnable (by simp [writeRows]) (by decide) a5
  obtain ⟨_, w6⟩ := w5.write .initSettle (by simp [writeRows]) (by decide) a6
  obtain ⟨_, w7⟩ := w6.settle rfl
  obtain ⟨t, w8⟩ := w7.write .selW (by simp [writeRows]) (by decide) a7
  have hoff : ∀ r, r ≠ .cmd → s.cfg.off r ≠ s.cfg.offCmd := fun r hr h => hr ((off_inj hc (q := .cmd)).1 h)
  refine ⟨t, w8.run, ⟨w8.alone, w8.cfg, w8.phase, w8.sub, w8.pollCnt (by decide), by omega, _, w8.trace, rfl, ?_, ?_⟩,
    w8.env⟩
  · simp [writesAt, hoff, commandsBefore]
  · simp [readsAt, bytesBefore]

/-! A poll that fails ends the LOAD. -/

/-- From a poll whose reads up to the bound all show its bit clear: the reads with their waits, then the disabling write, and
no byte known (R142, R147, R164). -/
theorem AtPoll.fails {s u : State} {k : Nat} {vs : List Word} {e e' : Env} (h : AtPoll s k u)
    (hlen : vs.length = 100000) (he : Env.reads s.cfg s.cfg.offPoll vs u.env e)
    (hv : ∀ v ∈ vs, ready (awaited s.cfg (pollPhase k)) v = false) (hw : e.absorb s.cfg .ctrl 0#32 = .ok e') :
    ∃ t, runSteps (200000 + 1) u = .next t ∧ t.phase = .done ∧ t.done = true ∧ t.err = .timeout ∧
      t.pollCnt = 100000#17 ∧ t.buf = [] ∧ t.remaining = u.remaining ∧
      t.trace = u.trace ++ waits s.cfg vs ++ [.w s.cfg.offCtrl 0#32] := by
  have hp : u.phase ∈ pollPhases := by
    rw [h.phase]
    unfold pollPhase
    split_ifs <;> decide
  rw [← h.cfg] at he hv hw ⊢
  rw [← h.phase] at hv
  have hne : vs ≠ [] := by rintro rfl; simp at hlen
  obtain ⟨g, hrun⟩ := poll_times_out h.alone hp h.sub hne (by rw [h.pollCnt, hlen]; rfl) he hv
  rw [hlen] at hrun
  refine ⟨_, runSteps_trans hrun ((runSteps_one _).trans (step_write (r := .ctrl) (v := 0#32) (q := .done) (e := e')
    (by exact ⟨h.alone.flight, h.alone.host, h.alone.window⟩) (by simp [writeRows]) (by exact hw))), ?_⟩
  exact ⟨rfl, rfl, rfl, rfl, rfl, rfl, rfl⟩

end Sys2Proof.Machine
end

section
/-! The ready bits (R7, R78), and a LOAD that fails at poll `k`: under E1 with a stuck poll, under E2 without a device. -/

namespace Sys2Proof.Machine

/-! The ready bits. -/

theorem oneBit_iff {m : Word} : oneBit m = true ↔ m ≠ 0#32 ∧ m &&& (m - 1#32) = 0#32 := by simp [oneBit]

/-- A word of one bit is a power of two. -/
theorem oneBit_toNat {m : Word} (h : oneBit m = true) : ∃ i, m.toNat = 2 ^ i := by
  obtain ⟨h0, h1⟩ := oneBit_iff.1 h
  have hn : m.toNat ≠ 0 := fun e => h0 (BitVec.eq_of_toNat_eq e)
  have hs : (m - 1#32).toNat = m.toNat - 1 := by bv_omega
  have ha := congrArg BitVec.toNat h1
  rw [BitVec.toNat_and, hs] at ha
  exact Nat.ne_zero_and_sub_one_eq_zero_iff_isPowerOfTwo.1 ⟨hn, ha⟩

/-- Distinct words of one bit share none. -/
theorem oneBit_and {m k : Word} (hm : oneBit m = true) (hk : oneBit k = true) (hne : m ≠ k) : m &&& k = 0#32 := by
  obtain ⟨i, hi⟩ := oneBit_toNat hm
  obtain ⟨j, hj⟩ := oneBit_toNat hk
  have hij : i ≠ j := by
    rintro rfl
    exact hne (BitVec.eq_of_toNat_eq (hi.trans hj.symm))
  refine BitVec.eq_of_toNat_eq ?_
  rw [BitVec.toNat_and, hi, hj, Nat.and_two_pow, Nat.testBit_two_pow]
  simp [hij]

/-- What R7 says of the ready masks and of the enabling value. -/
theorem Config.ready_masks {c : Config} (h : c.wf = true) :
    c.txReady ≠ 0#32 ∧ c.rxReady ≠ 0#32 ∧ c.txReady &&& c.rxReady = 0#32 ∧ c.ctrlEnable ≠ 0#32 := by
  simp only [Config.wf, Config.readyWf, Bool.and_eq_true, bne_iff_ne] at h
  obtain ⟨⟨_, ⟨ht, hr⟩, hne⟩, he⟩ := h
  exact ⟨(oneBit_iff.1 ht).1, (oneBit_iff.1 hr).1, oneBit_and ht hr hne, he⟩

/-- A ready mask shows where its bits are those of an answer, and does not where the answer has none of them (R78). -/
theorem ready_of_and {m v : Word} (hm : m ≠ 0#32) (h : v &&& m = m) : ready m v = true := by
  simp [ready, h, hm]

theorem not_ready_of_and {m v : Word} (h : v &&& m = 0#32) : ready m v = false := by
  simp [ready, h]

/-! What every LOAD up to a failing poll has in common. -/

theorem exists_site {k : Nat} (h1 : 1 ≤ k) (hk : k ≤ 3 ∨ k % 2 = 0) (r : BitVec 9) :
    ∃ x, siteOf (pollPhase k) r = some x := by
  obtain ⟨h, _⟩ := pollPhase_send h1 hk
  simp only [settleRows, List.mem_cons, Prod.mk.injEq, List.not_mem_nil, or_false] at h
  rcases h with h | h | h | h <;> exact ⟨_, by rw [h.1]; rfl⟩

/-- Where the environments of `P k` are those before poll `k`, and serve every poll before poll `K` at its first read, the
LOAD comes to poll `K`. -/
theorem reaches_poll {s : State} {P : Nat → Env → Prop} {K : Nat} (hc : s.cfg.wf = true) (hr : s.cfg.offPoll ≠ .rxdata)
    (hstart : ∃ n t, runSteps n s = .next t ∧ AtPoll s 1 t ∧ P 1 t.env) (hK : K ≤ 515)
    (hsend : ∀ k e r x, 1 ≤ k → (k ≤ 3 ∨ k % 2 = 0) → k < K → siteOf (pollPhase k) r = some x → P k e →
      ∃ e', e.sends s.cfg x e' ∧ P (k + 1) e')
    (hrecv : ∀ k e, 4 ≤ k → k % 2 = 1 → k < K → P k e → ∃ e', e.receives s.cfg e' ∧ P (k + 1) e') (h1 : 1 ≤ K) :
    ∃ n t, runSteps n s = .next t ∧ AtPoll s K t ∧ P K t.env := by
  have go : ∀ k, 1 ≤ k → k ≤ K → ∃ n t, runSteps n s = .next t ∧ AtPoll s k t ∧ P k t.env := by
    intro k hk
    induction k, hk using Nat.le_induction with
    | base => exact fun _ => hstart
    | succ k hk ih =>
      intro hle
      obtain ⟨n, u, hrun, hat, hP⟩ := ih (by omega)
      by_cases hs : k ≤ 3 ∨ k % 2 = 0
      · obtain ⟨x, hx⟩ := exists_site hk hs u.remaining
        obtain ⟨e', he, hP'⟩ := hsend k _ _ x hk hs hle hx hP
        obtain ⟨t, hstep, hat', rfl⟩ := hat.send hc hr hk hs hx he
        exact ⟨_, t, runSteps_trans hrun hstep, hat', hP'⟩
      · obtain ⟨e', he, hP'⟩ := hrecv k _ (by omega) (by omega) hle hP
        obtain ⟨t, hstep, hat', rfl⟩ := hat.receive hc hr (by omega) (by omega) (by omega) he
        exact ⟨_, t, runSteps_trans hrun hstep, hat', hP'⟩
  exact go K h1 le_rfl

theorem alone_of_atLoadStart {s : State} (hi : Inv s) (h : atLoadStart s) :
    Alone s ∧ s.phase = .initDisable ∧ s.sub = .poll := by
  obtain ⟨hp, hf, hh⟩ := h
  exact ⟨⟨hf, hh, hi.windowHeld (by rw [hp]; decide)⟩, hp, hi.subPoll (by rw [hp]; decide)⟩

/-- The waits of a poll that reads one and the same word. -/
theorem waits_replicate (c : Config) (n : Nat) (v : Word) :
    waits c (List.replicate n v) = (List.replicate n [Event.r (c.off c.offPoll) v, Event.d 1]).flatten := by
  rw [waits, List.flatMap_def, List.map_replicate]

/-! E1 with a stuck poll (R62, R147). -/

/-- E1 before poll `k`, every earlier poll having succeeded. -/
def Double.before (e : Double) (k : Nat) : Double :=
  { e with polls := k - 1, inPoll := false, dataReads := bytesBefore k }

theorem Double.init_absorbs {c : Config} (hc : c.wf = true) (e : Double) :
    Env.absorbs c (initWrites c) (.double e) (.double (e.before 1)) := by
  obtain ⟨_, _, _, hen⟩ := Config.ready_masks hc
  simp [initWrites, Env.absorbs, Env.absorb, Double.absorb, Double.before, Config.ctrlDisable, hen, bytesBefore]

/-- The first read of poll `k` (R62). -/
theorem Double.answer_before (c : Config) (e : Double) {k : Nat} (h1 : 1 ≤ k) (n : Nat) :
    (Env.double (e.before k)).answer c n c.offPoll =
      .ok (e.pollAnswer c k, .double { e.before k with polls := k, inPoll := true }) := by
  have hnum : (e.before k).pollNumber = k := by
    simp only [Double.pollNumber, Double.before]
    simp
    omega
  simp only [Env.answer, Double.answer, if_true, hnum]
  rfl

/-- A poll that is not stuck shows both ready bits (R62). -/
theorem Double.pollAnswer_ready {c : Config} (hc : c.wf = true) {e : Double} {k : Nat} (hk : e.stuck ≠ some k) :
    ready c.txReady (e.pollAnswer c k) = true ∧ ready c.rxReady (e.pollAnswer c k) = true := by
  obtain ⟨ht, hr, _, _⟩ := Config.ready_masks hc
  rw [Double.pollAnswer, if_neg hk]
  constructor
  · exact ready_of_and ht (by ext i hi; simp only [BitVec.getElem_and, BitVec.getElem_or]; grind)
  · exact ready_of_and hr (by ext i hi; simp only [BitVec.getElem_and, BitVec.getElem_or]; grind)

theorem Double.sends_before {c : Config} (hc : c.wf = true) {e : Double} {k : Nat} (h1 : 1 ≤ k)
    (hk : k ≤ 3 ∨ k % 2 = 0) (he : e.stuck ≠ some k) (x : Site) :
    (Env.double (e.before k)).sends c x (.double (e.before (k + 1))) := by
  refine ⟨_, _, .double { e.before k with polls := k }, e.answer_before c h1, (pollAnswer_ready hc he).1, ?_, ?_⟩
  · rfl
  · have hb := (before_send h1 hk).2.2
    cases x <;> simp [Env.take, Env.addressPhase, Env.dataPhase, Double.before, hb]

theorem Double.receives_before {c : Config} (hc : c.wf = true) (hr : c.offPoll ≠ .rxdata) {e : Double} {k : Nat}
    (h4 : 4 ≤ k) (hk : k % 2 = 1) (hlast : k < 515) (he : e.stuck ≠ some k) :
    (Env.double (e.before k)).receives c (.double (e.before (k + 1))) := by
  have hb := (before_receive h4 hk).2.2
  have hlt : bytesBefore k < 256 := by unfold bytesBefore; split_ifs <;> omega
  refine ⟨_, _, (e.img[bytesBefore k]).setWidth 32, e.answer_before c (by omega), (pollAnswer_ready hc he).2, fun n => ?_⟩
  simp [Env.answer, Double.answer, hr.symm, Double.before, hlt, hb]

/-- The polls that await the receive bit are those of phase `RCV` (R62). -/
theorem awaited_pollPhase (c : Config) {k : Nat} (h1 : 1 ≤ k) : awaited c (pollPhase k) = awaitedBit c k := by
  by_cases hs : k ≤ 3 ∨ k % 2 = 0
  · obtain ⟨x, hx⟩ := exists_site h1 hs 0#9
    have hp := siteOf_some hx
    rw [awaited, if_neg (by intro e; rw [e] at hp; revert hp; decide), awaitedBit, if_neg (by omega)]
  · rw [(pollPhase_receive (k := k) (by omega) (by omega)).1, awaited, if_pos rfl, awaitedBit, if_pos (by omega)]

/-- Poll `k` stuck: every read of it gives the same answer, with the awaited bit clear (R62). -/
theorem Double.stuck_reads (c : Config) {e : Double} {k : Nat} (h1 : 1 ≤ k) (he : e.stuck = some k) (n : Nat) :
    e.pollAnswer c k &&& awaitedBit c k = 0#32 ∧
      Env.reads c c.offPoll (List.replicate (n + 1) (e.pollAnswer c k)) (.double (e.before k))
        (.double { e.before k with polls := k, inPoll := true }) := by
  refine ⟨?_, Env.reads_replicate (e.answer_before c h1) (fun m => ?_) n⟩
  · rw [Double.pollAnswer, if_pos he, BitVec.and_assoc]
    simp
  · simp [Env.answer, Double.answer, Double.pollNumber, Double.pollAnswer, Double.before]

/-- Settles O51: INIT, the polls before poll `k` one by one, then poll `k`, whose reads never show its bit. -/
theorem loadUnderStuckDouble : Obligations.LoadUnderStuckDouble := by
  intro s e k hi hstart henv hstuck h1 hk hr
  have hc := hi.cfgWf
  obtain ⟨ha, hp, hs⟩ := alone_of_atLoadStart hi hstart
  have hne : ∀ j, j < k → e.stuck ≠ some j := fun j hj h => by
    rw [hstuck, Option.some.injEq] at h
    omega
  obtain ⟨n, u, hrun, hat, hu⟩ := reaches_poll (P := fun j x => x = .double (e.before j)) hc hr
    ⟨8, runSteps_init hc ha hp hs (henv ▸ e.init_absorbs hc)⟩ hk
    (fun j x r y hj hpar hlt _ hx => ⟨_, hx ▸ Double.sends_before hc hj hpar (hne j hlt) y, rfl⟩)
    (fun j x hj hodd hlt hx => ⟨_, hx ▸ Double.receives_before hc hr hj hodd (by omega) (hne j hlt), rfl⟩) h1
  obtain ⟨hv, hreads⟩ := Double.stuck_reads s.cfg h1 hstuck 99999
  obtain ⟨pre, htr, hlen, hcmd, hrd⟩ := hat.trace
  have hclear : ∀ v ∈ List.replicate (99999 + 1) (e.pollAnswer s.cfg k),
      ready (awaited s.cfg (pollPhase k)) v = false := by
    intro v hmem
    rw [List.eq_of_mem_replicate hmem, awaited_pollPhase s.cfg h1]
    exact not_ready_of_and hv
  obtain ⟨t, hfin, hdone, hd, herr, hcnt, hbuf, _, htrace⟩ := hat.fails List.length_replicate (hu ▸ hreads) hclear rfl
  rw [htr, waits_replicate] at htrace
  exact ⟨_, t, pre, _, runSteps_trans hrun hfin, hdone, hd, herr, hcnt, fun i => by rw [hbuf]; rfl, hv, htrace, hlen,
    hcmd, hrd⟩

/-! E2 without a device at the address (R63, R148). -/

/-- E2 is enabled, no device answers at the address, no byte waits and no latency is drawn (log entry 18). -/
structure Device.Absent (e : Device) : Prop where
  enabled : e.cEn = true
  absent : e.present = false
  noByte : e.rxValid = false
  noLag : e.lag = []

theorem Device.init_absorbs {c : Config} (hc : c.wf = true) {e : Device} (hp : e.present = false) (hl : e.lag = []) :
    ∃ e' : Device, Env.absorbs c (initWrites c) (.device e) (.device e') ∧ e'.Absent := by
  obtain ⟨_, _, _, hen⟩ := Config.ready_masks hc
  refine ⟨{ e with
    cEn := true, bus := .idle, rxValid := false, tLow := 500#32, tHigh := 500#32, tHold := 30#32 }, ?_, rfl, hp, rfl, hl⟩
  simp [initWrites, Env.absorbs, Env.absorb, Device.absorb, Config.ctrlDisable, hen.symm]

/-- A poll then shows the transmit bit alone, and changes nothing. -/
theorem Device.Absent.answer {c : Config} {e : Device} (h : e.Absent) (n : Nat) :
    (Env.device e).answer c n c.offPoll = .ok (c.txReady, .device e) := by
  simp [Env.answer, Device.answer, Device.pollAnswer, Device.readyBits, h.enabled, h.noByte, h.noLag]

/-- The words of the selection leave the bus held for no device, and so does the request of a byte but for its STOP. -/
theorem Device.Absent.take {e : Device} (h : e.Absent) {x : Site} (hx : x = .selW ∨ e.bus = .nodev) :
    ∃ e' : Device, (Env.device e).take x = .ok (.device e') ∧ e'.Absent ∧ (x ≠ .last → e'.bus = .nodev) := by
  obtain ⟨hen, hab, hby, hlag⟩ := h
  have hidle : ({ e with bus := .idle } : Device).Absent := ⟨hen, hab, hby, hlag⟩
  have hnodev : ({ e with bus := .nodev } : Device).Absent := ⟨hen, hab, hby, hlag⟩
  have hdata : e.bus = .nodev → ∀ b stop, (Env.device e).dataPhase b stop =
      .ok (.device (if stop then { e with bus := .idle } else e)) := by
    intro hb b stop
    simp [Env.dataPhase, Device.dataPhase, Device.moveByte, hb, hen]
  have haddr : ∀ a d, (Env.device e).addressPhase a d = .ok (.device { e with bus := .nodev }) := by
    intro a d
    simp [Env.addressPhase, Device.addressPhase, Device.select, hen, hab]
  cases x
  case selW | selR => exact ⟨_, haddr _ _, hnodev, fun _ => rfl⟩
  case offset | cont =>
    have hb := hx.resolve_left (by decide)
    exact ⟨e, hdata hb _ _, ⟨hen, hab, hby, hlag⟩, fun _ => hb⟩
  case last => exact ⟨_, hdata (hx.resolve_left (by decide)) _ _, hidle, fun h => absurd rfl h⟩

theorem Device.Absent.sends {c : Config} (hc : c.wf = true) {e : Device} (h : e.Absent) {x : Site}
    (hx : x = .selW ∨ e.bus = .nodev) :
    ∃ e' : Device, (Env.device e).sends c x (.device e') ∧ e'.Absent ∧ (x ≠ .last → e'.bus = .nodev) := by
  obtain ⟨ht, _⟩ := Config.ready_masks hc
  obtain ⟨e', htake, hrest⟩ := h.take hx
  exact ⟨e', ⟨_, _, .device e, h.answer, ready_of_and ht (by simp), rfl, htake⟩, hrest⟩

/-- E2 before poll `k` of a LOAD that finds no device: from the second poll to the fourth the bus is held for none. -/
def Device.absentBefore (k : Nat) (x : Env) : Prop :=
  ∃ d : Device, x = .device d ∧ d.Absent ∧ (2 ≤ k → k ≤ 4 → d.bus = .nodev)

theorem Device.absentBefore_sends {c : Config} (hc : c.wf = true) {k : Nat} {e : Env} {r : BitVec 9} {x : Site}
    (h1 : 1 ≤ k) (hk : k < 5) (hx : siteOf (pollPhase k) r = some x) (h : Device.absentBefore k e) :
    ∃ e', e.sends c x e' ∧ Device.absentBefore (k + 1) e' := by
  obtain ⟨d, rfl, hd, hb⟩ := h
  have hfirst : x = .selW ∨ 2 ≤ k := by
    refine or_iff_not_imp_right.2 fun hk2 => ?_
    obtain rfl : k = 1 := by omega
    exact (Option.some.inj hx).symm
  have hlast : k < 4 → x ≠ .last := by
    rintro hk4 rfl
    have hcases : k = 1 ∨ k = 2 ∨ k = 3 := by omega
    rcases hcases with rfl | rfl | rfl <;> cases Option.some.inj hx
  obtain ⟨d', hs, hd', hb'⟩ := hd.sends hc (x := x) (hfirst.imp_right fun h2 => hb h2 (by omega))
  exact ⟨_, hs, d', rfl, hd', fun _ h4 => hb' (hlast (by omega))⟩

/-- The waits of a poll are no command writes, and no reads of received-data where polls do not read it. -/
theorem waits_counts {c : Config} (hc : c.wf = true) (hr : c.offPoll ≠ .rxdata) (vs : List Word) :
    writesAt c.offCmd (waits c vs) = 0 ∧ readsAt c.offRxdata (waits c vs) = 0 := by
  induction vs with
  | nil => exact ⟨rfl, rfl⟩
  | cons v vs ih =>
    have hcons : waits c (v :: vs) = [.r (c.off c.offPoll) v, .d 1] ++ waits c vs := rfl
    rw [hcons, writesAt_append, readsAt_append, ih.1, ih.2]
    simp [writesAt, readsAt, off_poll_ne hc hr]

/-- Settles O54: INIT, the four polls of the words, all ready at once, then the receive poll, which shows the transmit bit
alone. -/
theorem loadWithoutADevice : Obligations.LoadWithoutADevice := by
  intro s e hi hstart henv hpres hlag hr
  have hc := hi.cfgWf
  obtain ⟨ha, hp, hs⟩ := alone_of_atLoadStart hi hstart
  obtain ⟨e1, hinit, habs⟩ := Device.init_absorbs hc hpres hlag
  obtain ⟨t1, hrun1, hat1, henv1⟩ := runSteps_init hc ha hp hs (henv ▸ hinit)
  obtain ⟨n, u, hrun, hat, d, hu, hd, _⟩ := reaches_poll (K := 5) (P := Device.absentBefore) hc hr
    ⟨8, t1, hrun1, hat1, e1, henv1, habs, by omega⟩ (by omega)
    (fun _ _ _ _ h1 _ h5 hx => Device.absentBefore_sends hc h1 h5 hx) (by omega) (by omega)
  obtain ⟨_, _, hdisj, hen⟩ := Config.ready_masks hc
  obtain ⟨pre, htr, _, hcmd, hrd⟩ := hat.trace
  have hclear : ∀ v ∈ List.replicate (99999 + 1) s.cfg.txReady, ready (awaited s.cfg (pollPhase 5)) v = false := by
    intro v hmem
    rw [List.eq_of_mem_replicate hmem]
    exact not_ready_of_and hdisj
  have hctrl : (Env.device d).absorb s.cfg .ctrl 0#32 =
      .ok (.device { d with cEn := false, bus := .idle, rxValid := false }) := by
    simp [Env.absorb, Device.absorb, Config.ctrlDisable, hen.symm]
  have hreads := Env.reads_replicate (hd.answer (c := s.cfg)) hd.answer 99999
  obtain ⟨t, hfin, hdone, hflag, herr, _, hbuf, hrem, htrace⟩ := hat.fails List.length_replicate
    (hu ▸ hreads) hclear hctrl
  obtain ⟨hw0, hr0⟩ := waits_counts hc hr (List.replicate (99999 + 1) s.cfg.txReady)
  have hoff : s.cfg.offCtrl ≠ s.cfg.offCmd := fun h => by simpa using (off_inj hc (r := .ctrl) (q := .cmd)).1 h
  rw [htr, List.append_assoc, List.append_assoc] at htrace
  refine ⟨_, t, _, runSteps_trans hrun hfin, hdone, hflag, herr, htrace, ?_, ?_, ?_, fun i => by rw [hbuf]; rfl⟩
  · rw [writesAt_append, writesAt_append, hcmd, hw0]
    simp [writesAt, hoff, commandsBefore]
  · rw [readsAt_append, readsAt_append, hrd, hr0]
    simp [readsAt, bytesBefore]
  · have h256 : u.remaining.toNat + bytesBefore 5 = 256 := hat.remaining (by omega)
    rw [hrem]
    exact BitVec.eq_of_toNat_eq h256

end Sys2Proof.Machine
end

section
/-! What the environments answer, absorb and do with a command (R60, R62, R63). -/

namespace Sys2Proof.Machine

/-! A command as the environment takes it (R110). -/

theorem takeAddress_refused {a : BitVec 7} {d : Dir} {s : State} {x : Refusal} :
    takeAddress a d s = .refused x ↔ s.env.addressPhase a d = .error x := by
  unfold takeAddress
  cases s.env.addressPhase a d <;> simp

theorem takeData_refused {b : Byte} {stop : Bool} {s : State} {x : Refusal} :
    takeData b stop s = .refused x ↔ s.env.dataPhase b stop = .error x := by
  unfold takeData
  cases s.env.dataPhase b stop <;> simp

/-- Settles O29: E0 and E1 give commands no effect. -/
theorem commandsHaveNoEffectWithoutDevice : Obligations.CommandsHaveNoEffectWithoutDevice := by
  intro s henv
  have ha : ∀ a d, takeAddress a d s = .next { s with inFlight := none } := fun a d =>
    takeAddress_next.2 ⟨s.env, by rcases henv with ⟨_, h⟩ | ⟨_, h⟩ <;> rw [h] <;> rfl, rfl⟩
  have hb : ∀ b stop, takeData b stop s = .next { s with inFlight := none } := fun b stop =>
    takeData_next.2 ⟨s.env, by rcases henv with ⟨_, h⟩ | ⟨_, h⟩ <;> rw [h] <;> rfl, rfl⟩
  exact ⟨ha, ha, fun b => hb b false, fun b => hb b true, ha _ _, hb _ _, ha _ _, hb _ _, hb _ _⟩

/-! E2's commands (R111 to R114). -/

section
variable {e : Device}

theorem device_addressPhase (hen : e.cEn = true) (a : BitVec 7) (d : Dir) :
    (Env.device e).addressPhase a d = .ok (.device { e with bus := e.select a d }) := by
  simp [Env.addressPhase, Device.addressPhase, hen]

theorem device_dataPhase {e' : Device} {b : Byte} (hen : e.cEn = true) (h : e.moveByte b = some e') (stop : Bool) :
    (Env.device e).dataPhase b stop = .ok (.device (if stop then { e' with bus := .idle } else e')) := by
  simp [Env.dataPhase, Device.dataPhase, hen, h]

theorem moveByte_write (hb : e.bus = .write) (b : Byte) : e.moveByte b = some { e with ptr := b } := by
  simp [Device.moveByte, hb]

theorem moveByte_read (hb : e.bus = .read) (b : Byte) :
    e.moveByte b = some { e with rxByte := e.romByte, ptr := e.ptr + 1#8, rxValid := true } := by
  simp [Device.moveByte, hb]

theorem moveByte_nodev (hb : e.bus = .nodev) (b : Byte) : e.moveByte b = some e := by
  simp [Device.moveByte, hb]

theorem moveByte_eq_none {b : Byte} : e.moveByte b = none ↔ e.bus = .idle := by
  unfold Device.moveByte
  cases e.bus <;> simp

theorem device_addressPhase_error {a : BitVec 7} {d : Dir} {x : Refusal} :
    (Env.device e).addressPhase a d = .error x ↔ e.cEn = false ∧ x = .deviceCommandWhileDisabled := by
  cases hen : e.cEn
  · simp [Env.addressPhase, Device.addressPhase, hen, eq_comm]
  · simp [device_addressPhase hen]

theorem device_dataPhase_error {b : Byte} {stop : Bool} {x : Refusal} :
    (Env.device e).dataPhase b stop = .error x ↔
      (e.cEn = false ∧ x = .deviceCommandWhileDisabled) ∨ (e.cEn = true ∧ e.bus = .idle ∧ x = .deviceDataOnIdleBus) := by
  cases hen : e.cEn
  · simp [Env.dataPhase, Device.dataPhase, hen, eq_comm]
  · rw [← moveByte_eq_none (b := b)]
    cases hm : e.moveByte b with
    | none => simp [Env.dataPhase, Device.dataPhase, hen, hm, eq_comm]
    | some e' => simp [device_dataPhase hen hm]

theorem romByte_of_getElem? {x : Byte} (h : e.rom[e.ptr.toNat]? = some x) : e.romByte = x := by
  obtain ⟨_, h⟩ := Vector.getElem?_eq_some_iff.1 h
  exact h

end

/-- Settles O30: by the bus an address phase selects. -/
theorem addressPhasesSelectTheDevice : Obligations.AddressPhasesSelectTheDevice := by
  intro s e henv hen
  have h : ∀ a d, exec (.start a d) s = .next { s with inFlight := none, env := .device { e with bus := e.select a d } } :=
    fun a d => takeAddress_next.2 ⟨_, henv ▸ device_addressPhase hen a d, rfl⟩
  exact ⟨fun a => h a .w, fun a => h a .r, fun _ _ => rfl, rfl, rfl⟩

/-- Settles O31: by the byte each direction moves. -/
theorem dataPhasesMoveOneByte : Obligations.DataPhasesMoveOneByte := by
  intro s e henv hen
  have h : ∀ b e', e.moveByte b = some e' →
      exec (.data b) s = .next { s with inFlight := none, env := .device e' } ∧
      exec (.dataStop b) s = .next { s with inFlight := none, env := .device { e' with bus := .idle } } := fun b e' hm =>
    ⟨takeData_next.2 ⟨_, henv ▸ device_dataPhase hen hm false, rfl⟩,
      takeData_next.2 ⟨_, henv ▸ device_dataPhase hen hm true, rfl⟩⟩
  refine ⟨fun b hb => h b _ (moveByte_write hb b), fun b x hb hx => ?_, fun b hb => ?_, rfl, rfl, rfl⟩
  · rw [← romByte_of_getElem? hx]
    exact h b _ (moveByte_read hb b)
  · have := h b e (moveByte_nodev hb b)
    rwa [← henv] at this

/-- Settles O32: a command is refused as the device refuses its phase. -/
theorem deviceRefusesCommands : Obligations.DeviceRefusesCommands := by
  intro s e henv
  have ha : ∀ a d x, takeAddress a d s = .refused x ↔ e.cEn = false ∧ x = .deviceCommandWhileDisabled := fun a d x => by
    rw [takeAddress_refused, henv, device_addressPhase_error]
  have hb : ∀ b stop x, takeData b stop s = .refused x ↔
      (e.cEn = false ∧ x = .deviceCommandWhileDisabled) ∨ (e.cEn = true ∧ e.bus = .idle ∧ x = .deviceDataOnIdleBus) :=
    fun b stop x => by rw [takeData_refused, henv, device_dataPhase_error]
  refine ⟨ha, ha, fun b => hb b false, fun b => hb b true, fun i hi => ?_, fun i hi => ?_⟩
  · simp only [List.mem_cons, List.not_mem_nil, or_false] at hi
    rcases hi with rfl | rfl <;> exact ha _ _
  · simp only [List.mem_cons, List.not_mem_nil, or_false] at hi
    rcases hi with rfl | rfl | rfl <;> exact hb _ _

/-! E2's answers and writes. -/

/-- Settles O33: by the register read, the latency draws and the waiting byte. -/
theorem deviceAnswersReads : Obligations.DeviceAnswersReads := by
  intro c n e
  refine ⟨fun hl => ?_, fun late rest hl => ?_, fun hr hv => ?_, fun hr hv => ?_, fun r h1 h2 => ?_⟩
  · simp [Env.answer, Device.answer, Device.pollAnswer, hl, Device.readyBits]
  · simp [Env.answer, Device.answer, Device.pollAnswer, hl, Device.readyBits]
  · simp [Env.answer, Device.answer, hr.symm, hv]
  · simp [Env.answer, Device.answer, hr.symm, hv]
  · simp [Env.answer, Device.answer, h1, h2]

/-- Settles O34: by the register written; the two control values differ. -/
theorem deviceAbsorbsWrites : Obligations.DeviceAbsorbsWrites := by
  intro c v e hc
  obtain ⟨_, _, _, hne⟩ := Config.ready_masks hc
  refine ⟨?_, ?_, fun h1 h2 => ?_, fun hen => ?_, fun hen r hr => ?_, rfl, rfl, fun r hr => ?_⟩
  · simp [Env.absorb, Device.absorb]
  · simp [Env.absorb, Device.absorb, Config.ctrlDisable, hne.symm]
  · simp [Env.absorb, Device.absorb, Config.ctrlDisable, h1, h2]
  · simp [Env.absorb, Device.absorb, hen]
  · simp only [List.mem_cons, List.not_mem_nil, or_false] at hr
    rcases hr with rfl | rfl | rfl <;> simp [Env.absorb, Device.absorb, hen]
  · simp only [List.mem_cons, List.not_mem_nil, or_false] at hr
    rcases hr with rfl | rfl | rfl | rfl | rfl <;> rfl

/-! E1's answers (R62). -/

/-- A poll read changes nothing but the numbering of the polls. -/
theorem double_poll (c : Config) (n : Nat) (e : Double) : (Env.double e).answer c n c.offPoll =
    .ok (e.pollAnswer c e.pollNumber, .double { e with polls := e.pollNumber, inPoll := true }) := by
  simp [Env.answer, Double.answer]

/-- Settles O35: a poll that is not stuck shows both bits, the stuck one not the awaited bit and no other than the two; a
data read gives the next byte of the image. -/
theorem doubleAnswersReads : Obligations.DoubleAnswersReads := by
  intro c n e hc
  refine ⟨fun k hk hs => ⟨_, hk ▸ double_poll c n e, ?_⟩, fun k hk hs => ⟨_, hk ▸ double_poll c n e, ?_⟩, fun hr x hx => ?_⟩
  · obtain ⟨ht, hr⟩ := Double.pollAnswer_ready hc hs
    simpa [ready] using And.intro ht hr
  · rw [Double.pollAnswer, if_pos hs]
    constructor
    · rw [BitVec.and_assoc]
      simp
    · rw [BitVec.and_comm (c.txReady ||| c.rxReady), BitVec.and_assoc]
      simp
  · obtain ⟨hlt, rfl⟩ := Vector.getElem?_eq_some_iff.1 hx
    simp [Env.answer, Double.answer, hr.symm, hlt]

end Sys2Proof.Machine
end

section
/-! A good state goes on where its environment serves the next access: the oracle E0, and the reference device E2, whose
invariant every step keeps. -/

namespace Sys2Proof.Machine

/-! The turns of a step from a good state. -/

/-- The controller takes an emitted word as the environment does. -/
theorem exec_site_next {x : Site} {s t : State} :
    exec x.instr s = .next t ↔ ∃ e, s.env.take x = .ok e ∧ t = { s with env := e, inFlight := none } := by
  cases x
  case selW | selR => exact takeAddress_next
  case offset | cont | last => exact takeData_next

/-- A good state's step is the controller's, with the word its phase has written, the block's, or a move of the host. -/
theorem Inv.step_cases {s t : State} (hi : Inv s) (h : step s = .next t) :
    (∃ x e, siteOf s.phase s.remaining = some x ∧ s.inFlight ≠ none ∧ s.env.take x = .ok e ∧
      t = { s with env := e, inFlight := none }) ∨
    (s.inFlight = none ∧ ∃ hs, (hs = s.host ∨ (s.phase.busy = true ∧ s.host = .quiet :: hs)) ∧
      PhaseStep { s with host := hs } t) ∨
    (∃ m rest, s.host = m :: rest ∧ hostDoes m { s with host := rest } = .took t) := by
  rcases step_next h with ⟨w, _, hw, _, _⟩ | ⟨hf, hs, hh, hp⟩ | ⟨_, m, rest, hh, hm⟩
  · obtain ⟨_, x, hx, rfl⟩ := hi.flight w hw
    rw [step_site s x hx hw] at h
    obtain ⟨e, he, rfl⟩ := exec_site_next.1 h
    exact .inl ⟨x, e, hx, by simp [hw], he, rfl⟩
  · exact .inr (.inl ⟨hf, hs, hh, phase_next (s := { s with host := hs }) hp⟩)
  · exact .inr (.inr ⟨m, rest, hh, hm⟩)

/-- A command is in flight only in sub-phase `SETTLE` (R42 (a)). -/
theorem Inv.sub_of_flight {s : State} (hi : Inv s) (hf : s.inFlight ≠ none) : s.sub = .settle := by
  obtain ⟨w, hw⟩ := Option.ne_none_iff_exists'.1 hf
  exact (hi.flight w hw).1

/-! Progress. -/

/-- The environment serves the access that comes next: the command in flight, the phase's write, the command write, the
poll read, the data read. -/
structure Serves (s : State) : Prop where
  take : ∀ x, siteOf s.phase s.remaining = some x → s.inFlight ≠ none → ∃ e, s.env.take x = .ok e
  write : ∀ r v q, (s.phase, r, v, q) ∈ writeRows s.cfg → ∃ e, s.env.absorb s.cfg r v = .ok e
  send : ∀ v, ∃ e, s.env.absorb s.cfg .cmd v = .ok e
  poll : ∃ v e, s.env.answer s.cfg s.draws s.cfg.offPoll = .ok (v, e)
  fetch : s.phase = .rcv → s.sub = .xfer → ∃ v e, s.env.answer s.cfg s.draws .rxdata = .ok (v, e)

/-- The phases by the kind of step they make (R127). -/
theorem phase_kinds (c : Config) (p : Phase) :
    (p = .idle ∨ p = .done) ∨ p = .initSettle ∨ (∃ r v q, (p, r, v, q) ∈ writeRows c) ∨ p ∈ sendPhases ∨
      p = .rcv := by
  cases p <;> simp [writeRows, sendPhases]

/-- A sending phase emits at a site, and another phase follows it (R137 to R140). -/
theorem sendPhase_rows {p : Phase} (hp : p ∈ sendPhases) (r : BitVec 9) :
    (∃ x, siteOf p r = some x) ∧ ∃ q, (p, q) ∈ settleRows := by
  simp only [sendPhases, List.mem_cons, List.not_mem_nil, or_false] at hp
  rcases hp with rfl | rfl | rfl | rfl <;> exact ⟨⟨_, rfl⟩, _, by simp [settleRows]; rfl⟩

/-- A good state with a silent host has a next state where the environment serves its next access. -/
theorem Inv.goes_on {s : State} (hi : Inv s) (hh : s.host = []) (hs : Serves s) : ∃ t, step s = .next t := by
  cases hf : s.inFlight with
  | some w =>
    obtain ⟨_, x, hx, rfl⟩ := hi.flight w hf
    obtain ⟨e, he⟩ := hs.take x hx (by simp [hf])
    exact ⟨_, step_take hx hf he⟩
  | none =>
    have hphase := step_phase s hf hh
    have ha : s.phase.busy = true → Alone s := fun hb => ⟨hf, hh, hi.windowHeld hb⟩
    have hpoll : s.phase ∈ pollPhases → s.sub = .poll ∨ s.sub = .pollWait → ∃ t, step s = .next t := by
      rintro hp (hsub | hsub)
      · obtain ⟨v, e, he⟩ := hs.poll
        exact ⟨_, step_poll (ha (busy_of_poll hp).1) hp hsub he⟩
      · exact ⟨_, step_pollWait (ha (busy_of_poll hp).1) hp hsub⟩
    rcases phase_kinds s.cfg s.phase with (hp | hp) | hp | ⟨r, v, q, hr⟩ | hp | hp
    · exact ⟨s, by rw [hphase, hp]; exact awaitStart_waits (by simp [hh])⟩
    · exact ⟨s, by rw [hphase, hp]; exact awaitStart_waits (by simp [hh])⟩
    · exact ⟨_, by rw [hphase, hp]; rfl⟩
    · obtain ⟨e, he⟩ := hs.write r v q hr
      have hb : s.phase.busy = true := by
        rcases writeRows_cases hr with ⟨hp, _⟩ | ⟨_, hb, _⟩
        · rw [hp]; rfl
        · exact hb
      exact ⟨_, step_write (ha hb) hr he⟩
    · have hp' : s.phase ∈ pollPhases := List.mem_append_left [Phase.rcv] hp
      obtain ⟨⟨x, hx⟩, q, hq⟩ := sendPhase_rows hp s.remaining
      have hal := ha (busy_of_poll hp').1
      cases hsub : s.sub
      case poll => exact hpoll hp' (.inl hsub)
      case pollWait => exact hpoll hp' (.inr hsub)
      case xfer =>
        obtain ⟨e, he⟩ := hs.send (siteWord s.cfg x)
        exact ⟨_, step_send hal hsub hx he⟩
      case settle => exact ⟨_, step_settle hal hsub hq⟩
    · have hp' : s.phase ∈ pollPhases := by rw [hp]; decide
      cases hsub : s.sub
      case poll => exact hpoll hp' (.inl hsub)
      case pollWait => exact hpoll hp' (.inr hsub)
      case xfer =>
        obtain ⟨v, e, he⟩ := hs.fetch hp hsub
        exact ⟨_, step_store (ha (busy_of_poll hp').1) hp hsub (hi.remainingPos (.inr hp)) hi.remainingLe he⟩
      case settle => exact absurd hsub (hi.subRcv hp)

theorem oracle_answers (c : Config) (n : Nat) (r : Reg) (tape : List Word) :
    ∃ v e, (Env.oracle tape).answer c n r = .ok (v, e) := by
  cases tape <;> exact ⟨_, _, rfl⟩

/-- Settles O16: the oracle serves every access. -/
theorem goodStatesGoOnUnderOracle : Obligations.GoodStatesGoOnUnderOracle := by
  intro s tape hi hh he
  refine hi.goes_on hh ⟨fun x _ _ => ?_, fun r v _ _ => ?_, fun v => ?_, ?_, fun _ _ => ?_⟩ <;> rw [he]
  · cases x <;> exact ⟨_, rfl⟩
  · exact ⟨_, oracle_absorb ..⟩
  · exact ⟨_, oracle_absorb ..⟩
  · exact oracle_answers ..
  · exact oracle_answers ..

end Sys2Proof.Machine
end

section
/-! E2 with a device that answers: it serves every access of a good state, and every step keeps what holds of block and
device together (R63, R148). -/

namespace Sys2Proof.Machine

/-! The invariant by the phase. -/

/-- What `DeviceInv` says of the device's presence, its enable bit and its timing registers, which depends on the phase
alone. -/
structure Settings (p : Phase) (e : Device) : Prop where
  present : e.present = true
  disabled : p ∈ disabledPhases → e.cEn = false
  enabled : p ∈ [Phase.initSettle, Phase.preAck] ++ pollPhases → e.cEn = true
  clockLow : 3 ≤ p.code.toNat → e.tLow = 500#32
  clockHigh : 4 ≤ p.code.toNat → e.tHigh = 500#32
  hold : 5 ≤ p.code.toNat → e.tHold = 30#32

/-- What `DeviceInv` says of the bus, the offset, the waiting byte and the stored ones in phase `p`. -/
def Expects (s : State) (e : Device) : Phase → Prop
  | .selW => taken s → e.bus = .write
  | .offset => e.bus = .write ∧ (taken s → e.ptr = 0#8)
  | .selR => e.ptr = 0#8 ∧ (taken s → e.bus = .read)
  | .req =>
    ((¬taken s → e.bus = .read ∧ e.ptr = BitVec.ofNat 8 (256 - s.remaining.toNat)) ∧ (taken s → byteWaiting s e)) ∧
      ∀ i, i < 256 - s.remaining.toNat → s.buf.get? i = e.rom[i]?
  | .rcv => byteWaiting s e ∧ ∀ i, i < 256 - s.remaining.toNat → s.buf.get? i = e.rom[i]?
  | .finDisable => s.err = .ok → e.ptr = 0#8 ∧ ∀ i, i < 256 → s.buf.get? i = e.rom[i]?
  | .done => (s.err = .ok → e.ptr = 0#8 ∧ ∀ i, i < 256 → s.buf.get? i = e.rom[i]?) ∧
      e.cEn = false ∧ e.bus = .idle ∧ e.rxValid = false
  | .idle | .initDisable | .initClklow | .initClkhigh | .initHold | .initAck | .initEnable | .initSettle
  | .preAck => True

theorem deviceInv_iff {s : State} {e : Device} :
    DeviceInv s e ↔ Settings s.phase e ∧ s.cfg.offPoll ≠ .rxdata ∧ Expects s e s.phase := by
  constructor
  · intro h
    refine ⟨⟨h.present, h.disabled, h.enabled, h.clockLow, h.clockHigh, h.hold⟩, h.pollReg, ?_⟩
    cases hp : s.phase
    case selW => exact h.afterSelW hp
    case offset => exact h.atOffset hp
    case selR => exact h.atSelR hp
    case req => exact ⟨h.atReq hp, h.stored (.inl hp)⟩
    case rcv => exact ⟨h.atRcv hp, h.stored (.inr hp)⟩
    case finDisable => exact h.storedAll (.inl hp)
    case done => exact ⟨h.storedAll (.inr hp), h.final hp⟩
    all_goals exact trivial
  · rintro ⟨h, hr, hx⟩
    exact {
      h with
      pollReg := hr
      afterSelW := fun hp => by rw [hp] at hx; exact hx
      atOffset := fun hp => by rw [hp] at hx; exact hx
      atSelR := fun hp => by rw [hp] at hx; exact hx
      atReq := fun hp => by rw [hp] at hx; exact hx.1
      atRcv := fun hp => by rw [hp] at hx; exact hx.1
      stored := by rintro (hp | hp) <;> rw [hp] at hx <;> exact hx.2
      storedAll := by
        rintro (hp | hp) <;> rw [hp] at hx
        · exact hx
        · exact hx.1
      final := fun hp => by rw [hp] at hx; exact hx.2 }

/-- Once the timing registers are written, a later phase asks for nothing new but that E2 be enabled. -/
theorem Settings.later {p q : Phase} {e : Device} (h : Settings p e) (hp : 5 ≤ p.code.toNat) (hq : q ∉ disabledPhases)
    {b x : Bool} {u : Bus} (hen : q ∈ [Phase.initSettle, Phase.preAck] ++ pollPhases → b = true) :
    Settings q { e with cEn := b, bus := u, rxValid := x } :=
  ⟨h.present, fun h => absurd h hq, hen, fun _ => h.clockLow (by omega), fun _ => h.clockHigh (by omega),
    fun _ => h.hold hp⟩

/-- Within a phase, before the controller has taken its command, nothing is asked of the sub-phase, the count or the
latency draws. -/
theorem DeviceInv.before_taken {s : State} {e : Device} (hd : DeviceInv s e) (hs : ¬taken s) {q : Sub} {n : BitVec 17}
    {v : Env} {g : Regs} {f : Option Word} {tr : List Event} {k : Nat} (ht : ¬(q = .settle ∧ f = none)) (l : List Bool) :
    DeviceInv { s with sub := q, pollCnt := n, env := v, regs := g, inFlight := f, trace := tr, draws := k }
      { e with lag := l } := by
  obtain ⟨hset, hr, hx⟩ := deviceInv_iff.1 hd
  refine deviceInv_iff.2 ⟨{ hset with }, hr, ?_⟩
  cases hp : s.phase <;> simp_all [Expects, byteWaiting, taken]

theorem not_taken {s : State} (h : s.sub ≠ .settle) : ¬taken s := fun ht => h ht.1

/-! What E2 does at each access. -/

/-- A poll read changes nothing but the latency draws. -/
theorem device_poll (c : Config) (n : Nat) (e : Device) :
    ∃ v l, (Env.device e).answer c n c.offPoll = .ok (v, .device { e with lag := l }) := by
  obtain ⟨hnone, hlag, _⟩ := deviceAnswersReads c n e
  cases hl : e.lag with
  | nil => exact ⟨_, e.lag, hnone hl⟩
  | cons late rest => exact ⟨_, rest, hlag late rest hl⟩

/-- A request in read direction delivers the byte at the offset, the last one with STOP (R118, R119, R140). -/
theorem device_request {e : Device} (hen : e.cEn = true) (hb : e.bus = .read) (r : BitVec 9) :
    (Env.device e).take (reqSite r) = .ok (.device { e with
      rxByte := e.romByte, ptr := e.ptr + 1#8, rxValid := true, bus := if r = 1#9 then .idle else .read }) := by
  unfold reqSite
  split
  · exact device_dataPhase hen (moveByte_read hb _) true
  · rw [← hb]
    exact device_dataPhase hen (moveByte_read hb _) false

/-- The byte of the request at offset `256 - remaining` is the one that waits then (R118, R119). -/
theorem byteWaiting_of_request {s : State} {e : Device} {b : Bus}
    (hptr : e.ptr = BitVec.ofNat 8 (256 - s.remaining.toNat)) (h1 : 1 ≤ s.remaining.toNat)
    (h2 : s.remaining.toNat ≤ 256) (hb : s.remaining ≠ 1#9 → b = .read) :
    byteWaiting s { e with rxByte := e.romByte, ptr := e.ptr + 1#8, rxValid := true, bus := b } := by
  have hn : 257 - s.remaining.toNat = 256 - s.remaining.toNat + 1 := by omega
  have hp : e.ptr.toNat = 256 - s.remaining.toNat := by rw [hptr]; simp; omega
  refine ⟨rfl, ?_, ?_, hb⟩
  · simp [Device.romByte, hp]
  · rw [hn, hptr]
    exact (BitVec.ofNat_add ..).symm

/-- After the store of a pass the bytes up to its own are those of the image, where the earlier ones were (R141). -/
theorem stored_next {n : Nat} {m : Mem} {img : Vector Byte 256} {x : Byte} (hx : some x = img[n]?)
    (h : ∀ i, i < n → m.get? i = img[i]?) :
    ∀ i, i < n + 1 → (Mem.set m n (lowByte (x.setWidth 32))).get? i = img[i]? := by
  intro i hlt
  by_cases hi : i = n
  · subst hi
    rw [Mem.get?_set_same, lowByte_eq, ← hx]
    simp
  · rw [Mem.get?_set_other _ _ _ _ hi]
    exact h i (by omega)

section
variable {s : State} {e : Device} (hi : Inv s) (hd : DeviceInv s e)
include hi hd

/-- E2 takes the word a phase has written, and stands as the phase then expects it (R115 to R119). -/
theorem DeviceInv.take {x : Site} (hx : siteOf s.phase s.remaining = some x) (hf : s.inFlight ≠ none) :
    ∃ d, (Env.device e).take x = .ok (.device d) ∧ DeviceInv { s with env := .device d, inFlight := none } d := by
  have hp := siteOf_some hx
  have hen := hd.enabled (List.mem_append_right _ (List.mem_append_left [Phase.rcv] hp))
  obtain ⟨hset, hr, _⟩ := deviceInv_iff.1 hd
  simp only [sendPhases, List.mem_cons, List.not_mem_nil, or_false] at hp
  rcases hp with hp | hp | hp | hp <;> rw [hp] at hx <;> cases hx
  · refine ⟨_, device_addressPhase hen _ _, deviceInv_iff.2 ⟨{ hset with }, hr, ?_⟩⟩
    simp [hp, Expects, Device.select, hd.present]
  · have hb := (hd.atOffset hp).1
    refine ⟨_, device_dataPhase hen (moveByte_write hb _) _, deviceInv_iff.2 ⟨{ hset with }, hr, ?_⟩⟩
    simp [hp, Expects, hb, Config.eepromOffset]
  · refine ⟨_, device_addressPhase hen _ _, deviceInv_iff.2 ⟨{ hset with }, hr, ?_⟩⟩
    simp [hp, Expects, (hd.atSelR hp).1, Device.select, hd.present]
  · obtain ⟨hb, hptr⟩ := (hd.atReq hp).1 fun h => hf h.2
    have hw := byteWaiting_of_request (b := if s.remaining = 1#9 then .idle else .read) hptr
      (hi.remainingPos (.inl hp)) hi.remainingLe fun h => if_neg h
    refine ⟨_, device_request hen hb _, deviceInv_iff.2 ⟨{ hset with }, hr, ?_⟩⟩
    rw [hp]
    exact ⟨⟨fun h => absurd ⟨hi.sub_of_flight hf, rfl⟩ h, fun _ => hw⟩, hd.stored (.inl hp)⟩

/-- E2 absorbs the write of a phase, and stands as the next phase expects it (R129 to R134, R136, R142). -/
theorem DeviceInv.write {r : Reg} {v : Word} {q : Phase} {n : BitVec 17} {g : Regs} {tr : List Event}
    (hr : (s.phase, r, v, q) ∈ writeRows s.cfg) :
    ∃ d, (Env.device e).absorb s.cfg r v = .ok (.device d) ∧ DeviceInv { s with
      phase := q, sub := .poll, pollCnt := n, done := decide (q = .done) || s.done,
      buf := if q = .done ∧ s.err ≠ .ok then [] else s.buf, env := .device d, regs := g, trace := tr } d := by
  obtain ⟨henable, hdisable, _, htiming, _, hisr, _⟩ := deviceAbsorbsWrites s.cfg v e hi.cfgWf
  obtain ⟨hset, hpoll, hx⟩ := deviceInv_iff.1 hd
  simp only [writeRows, List.mem_cons, Prod.mk.injEq, List.not_mem_nil, or_false] at hr
  simp only [deviceInv_iff]
  rcases hr with h | h | h | h | h | h | h | h <;> obtain ⟨hp, rfl, rfl, rfl⟩ := h <;> rw [hp] at hset hx
  · refine ⟨_, hdisable, ⟨hset.present, fun _ => rfl, ?_, ?_, ?_, ?_⟩, hpoll, trivial⟩
    all_goals exact fun h => absurd h (by decide)
  · have hoff := hset.disabled (by decide)
    refine ⟨_, (htiming hoff).1, ⟨hset.present, fun _ => hoff, ?_, fun _ => rfl, ?_, ?_⟩, hpoll, trivial⟩
    all_goals exact fun h => absurd h (by decide)
  · have hoff := hset.disabled (by decide)
    have hlow := hset.clockLow (by decide)
    refine ⟨_, (htiming hoff).2.1, ⟨hset.present, fun _ => hoff, ?_, fun _ => hlow, fun _ => rfl, ?_⟩, hpoll,
      trivial⟩
    all_goals exact fun h => absurd h (by decide)
  · have hoff := hset.disabled (by decide)
    exact ⟨_, (htiming hoff).2.2, ⟨hset.present, fun _ => hoff, fun h => absurd h (by decide),
      fun _ => hset.clockLow (by decide), fun _ => hset.clockHigh (by decide), fun _ => rfl⟩, hpoll, trivial⟩
  · exact ⟨e, hisr, ⟨hset.present, fun _ => hset.disabled (by decide), fun h => absurd h (by decide),
      fun _ => hset.clockLow (by decide), fun _ => hset.clockHigh (by decide), fun _ => hset.hold (by decide)⟩, hpoll,
      trivial⟩
  · exact ⟨_, henable, hset.later (by decide) (by decide) fun _ => rfl, hpoll, trivial⟩
  · exact ⟨e, hisr, hset.later (by decide) (by decide) fun _ => hset.enabled (by decide), hpoll, fun h => by cases h.1⟩
  · refine ⟨_, hdisable, hset.later (by decide) (by decide) fun h => absurd h (by decide), hpoll, fun he => ?_,
      rfl, rfl, rfl⟩
    simpa [show s.err = .ok from he] using hx he

omit hi in
/-- The phase after a command finds E2 as the command has left it (R137 to R140). -/
theorem DeviceInv.moves {q : Phase} {tr : List Event} (hs : s.sub = .settle) (hf : s.inFlight = none)
    (hq : (s.phase, q) ∈ settleRows) : DeviceInv { s with
      phase := q, sub := .poll, pollCnt := 0#17, remaining := if q = .req then 256#9 else s.remaining, trace := tr } e := by
  have ht : taken s := ⟨hs, hf⟩
  obtain ⟨hset, hpoll, hx⟩ := deviceInv_iff.1 hd
  rw [deviceInv_iff]
  simp only [settleRows, List.mem_cons, Prod.mk.injEq, List.not_mem_nil, or_false] at hq
  rcases hq with h | h | h | h <;> obtain ⟨hp, rfl⟩ := h <;> rw [hp] at hset hx
  all_goals
    have hnext : ∀ q ∈ pollPhases, Settings q e := fun q hq =>
      hset.later (by decide) (by revert q; decide) fun _ => hset.enabled (by decide)
    refine ⟨hnext _ (by simp [pollPhases]), hpoll, ?_⟩
  · exact ⟨hx ht, fun h => by cases h.1⟩
  · exact ⟨hx.2 ht, fun h => by cases h.1⟩
  · exact ⟨⟨fun _ => ⟨hx.2 ht, hx.1⟩, fun h => by cases h.1⟩, fun i hi => absurd hi (by simp)⟩
  · exact ⟨hx.1.2 ht, hx.2⟩

/-- The transfer of `RCV` stores the EEPROM's byte of its pass, and leaves E2 as the next request expects it (R141, R148). -/
theorem DeviceInv.stores {n : BitVec 17} {g : Regs} {tr : List Event} {k : Nat} (hp : s.phase = .rcv) :
    DeviceInv { s with
      phase := if s.remaining = 1#9 then .finDisable else .req, sub := .poll, pollCnt := n,
      remaining := s.remaining - 1#9, buf := s.buf.set (256 - s.remaining.toNat) (lowByte (e.rxByte.setWidth 32)),
      env := .device { e with rxValid := false }, regs := g, trace := tr, draws := k } { e with rxValid := false } := by
  obtain ⟨hset, hpoll, hx⟩ := deviceInv_iff.1 hd
  rw [hp] at hset hx
  obtain ⟨⟨_, hbyte, hptr, hbus⟩, hstored⟩ := hx
  have h1 := hi.remainingPos (.inr hp)
  have h2 := hi.remainingLe
  have hset' : ∀ q, q ∉ disabledPhases → Settings q { e with rxValid := false } := fun q hq =>
    hset.later (by decide) hq fun _ => hset.enabled (by decide)
  have hn : 257 - s.remaining.toNat = 256 - s.remaining.toNat + 1 := by omega
  have hbuf := stored_next hbyte hstored
  rw [← hn] at hbuf
  rw [deviceInv_iff]
  by_cases hlast : s.remaining = 1#9
  · simp only [hlast, if_true] at hptr hbuf ⊢
    exact ⟨hset' _ (by decide), hpoll, fun _ => ⟨hptr, fun i hi => hbuf i hi⟩⟩
  · simp only [hlast, if_false]
    have hrem : 256 - (s.remaining - 1#9).toNat = 257 - s.remaining.toNat := by bv_omega
    refine ⟨hset' _ (by decide), hpoll, ⟨fun _ => ⟨hbus hlast, ?_⟩, fun h => by cases h.1⟩, ?_⟩
    · rw [hrem]; exact hptr
    · rw [hrem]; exact hbuf

/-- E2 serves every access of a good state. -/
theorem DeviceInv.serves (henv : s.env = .device e) : Serves s := by
  refine ⟨fun x hx hf => ?_, fun r v q hr => ?_, fun v => ?_, ?_, fun hp _ => ?_⟩ <;> rw [henv]
  · obtain ⟨d, h, _⟩ := hd.take hi hx hf
    exact ⟨_, h⟩
  · obtain ⟨d, h, _⟩ := hd.write hi (n := 0#17) (g := s.regs) (tr := []) hr
    exact ⟨_, h⟩
  · exact ⟨_, rfl⟩
  · obtain ⟨v, l, h⟩ := device_poll s.cfg s.draws e
    exact ⟨_, _, h⟩
  · obtain ⟨_, _, hfetch, _⟩ := deviceAnswersReads s.cfg s.draws e
    exact ⟨_, _, hfetch hd.pollReg (hd.atRcv hp).1⟩

/-- Every step of the block leaves E2 behind the window and keeps what holds of the two. -/
theorem DeviceInv.phaseStep {t : State} (henv : s.env = .device e) (hf : s.inFlight = none) (h : PhaseStep s t) :
    ∃ d, t.env = .device d ∧ DeviceInv t d := by
  obtain ⟨hset, hpoll, hx⟩ := deviceInv_iff.1 hd
  cases h <;> subst t
  case waits => exact ⟨e, henv, hd⟩
  case begins =>
    refine ⟨e, henv, deviceInv_iff.2 ⟨⟨hset.present, ?_, ?_, ?_, ?_, ?_⟩, hpoll, trivial⟩⟩
    all_goals exact fun h => absurd h (by simp [disabledPhases, pollPhases, Phase.code])
  case writes r v q e' hr _ he =>
    obtain ⟨d, hd', hinv⟩ := hd.write hi hr
    rw [henv, hd'] at he
    cases he
    exact ⟨d, rfl, hinv⟩
  case settles hp =>
    rw [hp] at hset
    have hnext : Settings .preAck e := hset.later (by decide) (by decide) fun _ => hset.enabled (by decide)
    exact ⟨e, henv, deviceInv_iff.2 ⟨hnext, hpoll, trivial⟩⟩
  case polls hp hs _ v e' he =>
    obtain ⟨w, l, hl⟩ := device_poll s.cfg s.draws e
    rw [henv, hl] at he
    cases he
    refine ⟨_, rfl, hd.before_taken (not_taken (by simp [hs])) (fun h => ?_) l⟩
    obtain ⟨h, _⟩ := h
    split at h <;> cases h
  case fails hp _ _ =>
    have hlate : 5 ≤ s.phase.code.toNat := by generalize s.phase = p at hp; revert p; decide
    have hnext : Settings .finDisable e := hset.later hlate (by decide) fun h => absurd h (by decide)
    exact ⟨e, henv, deviceInv_iff.2 ⟨hnext, hpoll, fun h => by cases h⟩⟩
  case counts hs _ =>
    exact ⟨e, henv, hd.before_taken (not_taken (by simp [hs])) (by simp) e.lag⟩
  case sends hs _ x e' _ he =>
    rw [henv] at he
    cases he
    exact ⟨e, rfl, hd.before_taken (not_taken (by simp [hs])) (by simp) e.lag⟩
  case moves hs q hq => exact ⟨e, henv, hd.moves hs hf hq⟩
  case stores hp _ _ _ _ v e' he =>
    obtain ⟨_, _, hfetch, _⟩ := deviceAnswersReads s.cfg s.draws e
    rw [henv, hfetch hpoll (hd.atRcv hp).1] at he
    cases he
    exact ⟨_, rfl, hd.stores hi hp⟩

end

/-- Outside the block the host changes the window, its list and the replies; a reset leaves E2 behind the window only where
no LOAD runs, and then asks nothing of it. -/
theorem DeviceInv.hostDoes {m : HostMove} {s t : State} {e e' : Device} (hd : DeviceInv s e) (henv : s.env = .device e)
    (h : hostDoes m s = .took t) (he' : t.env = .device e') : DeviceInv t e' := by
  rcases hostDoes_took h with ⟨b, _, _, _, rfl⟩ | ⟨_, _, rfl⟩ | ⟨a, rfl⟩ | ⟨_, rfl⟩ | ⟨_, _, rfl⟩
  case inr.inr.inr.inl =>
    simp only [resetEvent] at he'
    split at he'
    · cases he'
    · rw [henv] at he'
      cases he'
      refine deviceInv_iff.2 ⟨⟨hd.present, ?_, ?_, ?_, ?_, ?_⟩, hd.pollReg, trivial⟩
      all_goals exact fun h => absurd h (by simp [resetEvent, disabledPhases, pollPhases, Phase.code])
  all_goals
    cases henv.symm.trans he'
    exact { hd with }

/-- Settles O52: E2 takes the command in flight, serves the block's next access, and is left alone by the host, but for a
reset inside a LOAD, after which it is no longer behind the window. -/
theorem stepKeepsDeviceInv : Obligations.StepKeepsDeviceInv := by
  intro s e hi henv hd
  refine ⟨fun t e' h he' => ?_, fun hh => hi.goes_on hh (hd.serves hi henv)⟩
  rcases hi.step_cases h with ⟨x, e1, hx, hf, htake, rfl⟩ | ⟨hf, hs, _, hp⟩ | ⟨m, rest, _, hm⟩
  · obtain ⟨d, hd', hinv⟩ := hd.take hi hx hf
    rw [henv, hd'] at htake
    cases htake
    cases he'
    exact hinv
  · have hi' : Inv { s with host := hs } := hi.outside hi.windowHeld hi.windowAligned (.inr rfl)
    have hd' : DeviceInv { s with host := hs } e := { hd with }
    obtain ⟨d, h1, h2⟩ := hd'.phaseStep hi' henv hf hp
    rw [h1] at he'
    cases he'
    exact h2
  · have hd' : DeviceInv { s with host := rest } e := { hd with }
    exact hd'.hostDoes henv hm he'

end Sys2Proof.Machine
end

section
/-! What a step does at the trace, with the environment behind the window, and once a LOAD is done: one event at most, one
access at most, and the cache as it is. -/

namespace Sys2Proof.Machine

/-! Events (R127). -/

/-- A waiting phase makes no event, and changes nothing but at a `load_start`; any other phase makes one event. -/
theorem PhaseStep.waits_or_acts {s t : State} (h : PhaseStep s t) :
    (s.phase.busy = false ∧ t.trace = s.trace ∧ (t = s ∨ ∃ rest, s.host = .loadStart :: rest)) ∨
      (s.phase.busy = true ∧ ∃ ev, t.trace = s.trace ++ [ev]) := by
  cases h <;> subst t
  case waits hp => exact .inl ⟨Phase.busy_eq_false.2 hp, rfl, .inl rfl⟩
  case begins hp rest hh _ => exact .inl ⟨Phase.busy_eq_false.2 hp, rfl, .inr ⟨rest, hh⟩⟩
  all_goals refine .inr ⟨?_, _, rfl⟩
  case writes hr _ _ =>
    rcases writeRows_cases hr with ⟨hp, _⟩ | ⟨_, hb, _⟩
    · rw [hp]; rfl
    · exact hb
  case settles hp => rw [hp]; rfl
  case polls hp _ _ _ _ _ => exact (busy_of_poll hp).1
  case fails hp _ _ => exact (busy_of_poll hp).1
  case counts hp _ _ => exact (busy_of_poll hp).1
  case sends hx _ => exact (busy_of_poll (List.mem_append_left [Phase.rcv] (siteOf_some hx))).1
  case moves q hq =>
    simp only [settleRows, List.mem_cons, Prod.mk.injEq, List.not_mem_nil, or_false] at hq
    rcases hq with h | h | h | h <;> rw [h.1] <;> rfl
  case stores hp _ _ _ _ _ _ _ => rw [hp]; rfl

theorem hostDoes_took_trace {m : HostMove} {s t : State} (h : hostDoes m s = .took t) : t.trace = s.trace := by
  rcases hostDoes_took h with ⟨_, _, _, _, rfl⟩ | ⟨_, _, rfl⟩ | ⟨_, rfl⟩ | ⟨_, rfl⟩ | ⟨_, _, rfl⟩ <;> rfl

/-- Settles O7: by whose turn it is; of the three only the block makes events. -/
theorem oneEventPerBlockStep : Obligations.OneEventPerBlockStep := by
  intro s t h
  rcases step_next h with ⟨w, _, hw, hd, hc⟩ | ⟨hf, hs, _, hp⟩ | ⟨hf, m, rest, hh, hm⟩
  · obtain ⟨e, rfl⟩ := exec_command_next (decodeCommand_isCommand hd) hc
    exact ⟨.inl rfl, fun _ => rfl, fun _ => rfl, fun hf => by rw [hw] at hf; cases hf⟩
  · rcases (phase_next (s := { s with host := hs }) hp).waits_or_acts with ⟨hb, ht, _⟩ | ⟨hb, ev, ht⟩
    · exact ⟨.inl ht, fun _ => ht, fun _ => ht, fun _ _ hb' => absurd (hb'.symm.trans hb) (by decide)⟩
    · exact ⟨.inr ⟨ev, ht⟩, fun hf' => absurd hf hf', fun hb' => absurd (hb.symm.trans hb') (by decide),
        fun _ _ _ => ⟨ev, ht⟩⟩
  · have ht := hostDoes_took_trace hm
    exact ⟨.inl ht, fun _ => ht, fun _ => ht, fun _ hh' => by rw [hh] at hh'; cases hh'⟩

/-! The host's side once a LOAD is done (R66, R155). -/

/-- The accessors read `done`, `err`, `buf` and the count of draws alone. -/
theorem accessors_congr {s t : State} (hd : t.done = s.done) (he : t.err = s.err) (hb : t.buf = s.buf)
    (hn : t.draws = s.draws) : macAddress t = macAddress s ∧ ∀ out cap, assetTag out cap t = assetTag out cap s := by
  have hbyte : t.bufByte = s.bufByte := by funext i; simp [State.bufByte, hd, he, hb, hn]
  have hlay : layoutCheck t = layoutCheck s := by simp [layoutCheck, he, hbyte]
  exact ⟨by simp [macAddress, hlay, State.bufBytes, hbyte],
    fun out cap => by simp [assetTag, hlay, State.bufBytes, hbyte]⟩

/-- Of the host's moves only a reset writes a register of the block or draws. -/
theorem hostDoes_took_cache {m : HostMove} {s t : State} (h : hostDoes m s = .took t) (hm : m ≠ .reset) :
    t.phase = s.phase ∧ t.done = s.done ∧ t.err = s.err ∧ t.buf = s.buf ∧ t.draws = s.draws := by
  rcases hostDoes_took h with ⟨_, _, _, _, rfl⟩ | ⟨_, _, rfl⟩ | ⟨_, rfl⟩ | ⟨hr, _⟩ | ⟨_, _, rfl⟩
  case inr.inr.inr.inl => exact absurd hr hm
  all_goals exact ⟨rfl, rfl, rfl, rfl, rfl⟩

/-- Settles O55: the controller, the waiting block and the moves of the host other than `load_start` and reset leave `err`,
`buf` and `done` alone. -/
theorem cacheIsFrozenWhileDone : Obligations.CacheIsFrozenWhileDone := by
  intro s t hi hdone hload hreset h
  have hp : s.phase = .done := hi.doneIff.1 hdone
  suffices ht : t.phase = s.phase ∧ t.done = s.done ∧ t.err = s.err ∧ t.buf = s.buf ∧ t.draws = s.draws by
    obtain ⟨h1, h2, h3, h4, h5⟩ := ht
    exact ⟨h1.trans hp, h2.trans hdone, h3, h4, accessors_congr h2 h3 h4 h5⟩
  have hwait : s.phase.busy = false := by rw [hp]; rfl
  rcases hi.step_cases h with ⟨_, e, _, _, _, rfl⟩ | ⟨_, hs, hh, hstep⟩ | ⟨m, rest, hh, hm⟩
  · exact ⟨rfl, rfl, rfl, rfl, rfl⟩
  · obtain rfl : hs = s.host := hh.resolve_right fun hb => by simp [hwait] at hb
    rcases hstep.waits_or_acts with ⟨_, _, rfl | ⟨rest, hr⟩⟩ | ⟨hb, _⟩
    · exact ⟨rfl, rfl, rfl, rfl, rfl⟩
    · exact absurd hr (hload rest)
    · exact absurd (hb.symm.trans hwait) (by decide)
  · exact hostDoes_took_cache (s := { s with host := rest }) hm fun hr => hreset rest (hr ▸ hh)

/-- Settles O43: the two moves by what each checks, a `load_start` without a window by the waiting phase. -/
theorem detachOnlyOutsideALoad : Obligations.DetachOnlyOutsideALoad := by
  intro s rest hf
  refine ⟨fun hh hw h1 h2 => ?_, fun hh hw hp => ?_, fun hh hw hp => ?_, fun base hh hw hb => ?_⟩
  · have hb := Phase.busy_eq_true.2 ⟨h1, h2⟩
    exact step_stop hf hh (by simp [hostDoes, hw, hb])
  · have hb := Phase.busy_eq_false.2 hp
    exact step_took hf hh (by simp [hostDoes, hw, hb])
  · have hb : ¬s.phase.busy = true := by rw [Phase.busy_eq_false.2 hp]; decide
    rw [step_pass hf hh (if_neg hb)]
    have hstart : awaitStart { s with host := .loadStart :: rest } = .refused .notAttached := by
      simp [awaitStart, beginLoad, hw]
    rcases hp with e | e <;> simp only [e, Phase.instr] <;> exact hstart
  · exact step_took hf hh (by simp [hostDoes, hw, hb])

end Sys2Proof.Machine
end

section
/-! Any environment against the oracle: an instruction makes at most one access, and the answer alone decides what
follows (R57, R60). -/

namespace Sys2Proof.Machine

/-! Accesses. -/

/-- What an instruction can ask of the environment: nothing, a write, a read, or to take a command (R42, R50, R51). -/
inductive Access where
  | nothing
  | write (r : Reg) (v : Word)
  | read (r : Reg)
  | address (a : BitVec 7) (d : Dir)
  | data (b : Byte) (stop : Bool)

/-- The environment after an access, with the word it answers; where nothing is read, that word is 0. -/
def Env.serve (c : Config) (n : Nat) (e : Env) : Access → Except Refusal (Word × Env)
  | .nothing => .ok (0#32, e)
  | .write r v => (e.absorb c r v).map fun e' => (0#32, e')
  | .read r => e.answer c n r
  | .address a d => (e.addressPhase a d).map fun e' => (0#32, e')
  | .data b stop => (e.dataPhase b stop).map fun e' => (0#32, e')

theorem except_map_ok {x : Except Refusal Env} {v : Word} {e : Env} :
    x.map (fun e' => ((0#32 : Word), e')) = .ok (v, e) ↔ v = 0#32 ∧ x = .ok e := by
  cases x with
  | error x => simp [Except.map]
  | ok y => simp only [Except.map, Except.ok.injEq, Prod.mk.injEq, @eq_comm _ (0#32)]

/-- Whatever word an environment answers, the oracle answers it from a tape that holds no more. -/
theorem oracle_serves {c : Config} {n : Nat} {a : Access} {e e' : Env} {v : Word} (h : e.serve c n a = .ok (v, e')) :
    ∃ tape e'', tape.length ≤ 1 ∧ (Env.oracle tape).serve c n a = .ok (v, e'') := by
  cases a
  case read r => exact ⟨[v], _, by simp, oracle_answer_cons c n r v []⟩
  case nothing =>
    cases h
    exact ⟨[], _, by simp, rfl⟩
  all_goals
    obtain ⟨rfl, _⟩ := except_map_ok.1 h
    exact ⟨[], _, by simp, rfl⟩

/-- In state `s`, whatever the environment, the meaning `f` stops, or it makes one access of which it uses the answer
alone, and the trace tells different answers apart. -/
def AsksOnce (f : State → Host.Outcome State Fault Refusal) (s : State) : Prop :=
  (∀ e t, f { s with env := e } ≠ .next t) ∨
  ∃ (a : Access) (g : Word → State),
    (∀ e t, f { s with env := e } = .next t ↔
      ∃ v e', e.serve s.cfg s.draws a = .ok (v, e') ∧ t = { g v with env := e' }) ∧
    ∀ v w, (g v).trace = (g w).trace → g v = g w

/-- An update that neither reads nor writes the environment. -/
def EnvFree (k : State → State) : Prop := ∀ (u : State) (e : Env), k { u with env := e } = { k u with env := e }

section
variable {f : State → Host.Outcome State Fault Refusal} {s : State}

/-- A meaning whose access reads nothing goes to one and the same state, but for the environment. -/
theorem asksOnce_of_ack {a : Access} (x : Env → Except Refusal Env) (u : State)
    (ha : ∀ e : Env, e.serve s.cfg s.draws a = (x e).map fun e' => (0#32, e'))
    (h : ∀ e t, f { s with env := e } = .next t ↔ ∃ e', x e = .ok e' ∧ t = { u with env := e' }) : AsksOnce f s := by
  refine .inr ⟨a, fun _ => u, fun e t => (h e t).trans ?_, fun _ _ _ => rfl⟩
  simp only [ha, except_map_ok]
  exact ⟨fun ⟨e', he, ht⟩ => ⟨_, e', ⟨rfl, he⟩, ht⟩, fun ⟨_, e', ⟨_, he⟩, ht⟩ => ⟨e', he, ht⟩⟩

theorem asksOnce_nothing {k : State → State} (hk : EnvFree k)
    (h : ∀ e, f { s with env := e } = .next (k { s with env := e })) : AsksOnce f s := by
  refine asksOnce_of_ack (a := .nothing) .ok (k s) (fun _ => rfl) fun e t => ?_
  rw [h, hk]
  constructor
  · rintro ⟨⟩
    exact ⟨e, rfl, rfl⟩
  · rintro ⟨_, ⟨⟩, rfl⟩
    rfl

theorem asksOnce_takeAddress (a : BitVec 7) (d : Dir) : AsksOnce (takeAddress a d) s :=
  asksOnce_of_ack (a := .address a d) (fun e => e.addressPhase a d) (s.setInFlight none) (fun _ => rfl)
    fun _ _ => takeAddress_next

theorem asksOnce_takeData (b : Byte) (stop : Bool) : AsksOnce (takeData b stop) s :=
  asksOnce_of_ack (a := .data b stop) (fun e => e.dataPhase b stop) (s.setInFlight none) (fun _ => rfl)
    fun _ _ => takeData_next

theorem asksOnce_write {r : Reg} {v : Word} {k : State → State} (hk : EnvFree k) :
    AsksOnce (fun u => thenDo (regWrite r v u) fun t => .next (k t)) s := by
  by_cases hw : s.window = none
  · exact .inl fun e t h => (write_then_next h).1 hw
  · have hwr : ∀ e e', k (written r v e' { s with env := e }) = { k (written r v s.env s) with env := e' } := by
      intro e e'
      rw [← hk]
      simp only [written, State.latch]
      split <;> rfl
    refine asksOnce_of_ack (a := .write r v) (fun e => e.absorb s.cfg r v) (k (written r v s.env s)) (fun _ => rfl)
      fun e t => ⟨fun h => ?_, ?_⟩
    · obtain ⟨_, e', he, rfl⟩ := write_then_next h
      exact ⟨e', he, hwr e e'⟩
    · rintro ⟨e', he, rfl⟩
      rw [← hwr e e']
      exact thenDo_next.2 ⟨_, regWrite_next.2 ⟨hw, e', he, rfl⟩, rfl⟩

theorem asksOnce_read {r : Reg} {k : Word → State → State} (hk : ∀ v, EnvFree (k v))
    (htr : ∀ v u, (k v u).trace = u.trace)
    (h : ∀ e t, f { s with env := e } = .next t ↔ s.window ≠ none ∧
      ∃ v e', e.answer s.cfg s.draws r = .ok (v, e') ∧ t = k v (received r v e' { s with env := e })) : AsksOnce f s := by
  by_cases hw : s.window = none
  · exact .inl fun e t ht => ((h e t).1 ht).1 hw
  · refine .inr ⟨.read r, fun v => k v (received r v s.env s), fun e t => ?_, fun v w he => ?_⟩
    · have hre : ∀ v e', k v (received r v e' { s with env := e }) = { k v (received r v s.env s) with env := e' } :=
        fun v e' => hk v (received r v s.env s) e'
      simp only [h, hre]
      exact and_iff_right hw
    · have hvw : v = w := by simpa [htr, received_eq] using he
      rw [hvw]

/-! The operations of the block. -/

theorem asksOnce_pollRead (p : Phase) (mask : Word) : AsksOnce (pollRead p mask) s :=
  asksOnce_read (r := s.cfg.offPoll) (k := fun v u => u.goto p (if ready mask v then .xfer else .pollWait))
    (fun _ _ _ => rfl) (fun _ _ => rfl) fun e _ => pollRead_next (s := { s with env := e })

theorem pollWait_envFree (p : Phase) : EnvFree (pollWait p) := by
  intro u e
  by_cases h : u.pollCnt + 1#17 = 100000#17
  · rw [pollWait_fails h, pollWait_fails (s := { u with env := e }) h]
  · rw [pollWait_counts h, pollWait_counts (s := { u with env := e }) h]

theorem storeByte_envFree (i : Nat) (v : Word) : EnvFree (storeByte i v) := by
  intro u e
  rw [storeByte_eq, storeByte_eq]

theorem AsksOnce.congr {f' : State → Host.Outcome State Fault Refusal} (hf : AsksOnce f s)
    (h : ∀ e, f' { s with env := e } = f { s with env := e }) : AsksOnce f' s := by
  simpa only [AsksOnce, h] using hf

theorem asksOnce_sendPhase {p : Phase} {w : Word} {k : State → State} (hk : EnvFree k) :
    AsksOnce (sendPhase p w k) s := by
  cases hs : s.sub
  case poll => exact (asksOnce_pollRead p s.cfg.txReady).congr fun e => by simp only [sendPhase, hs]
  case pollWait => exact asksOnce_nothing (pollWait_envFree p) fun e => by simp only [sendPhase, hs]
  case xfer =>
    exact (asksOnce_write (k := State.goto p .settle) fun _ _ => rfl).congr fun e => by simp only [sendPhase, hs]; rfl
  case settle =>
    exact asksOnce_nothing (k := fun u => k (delay 1 u)) (fun u e => hk (delay 1 u) e) fun e => by
      simp only [sendPhase, hs, Config.writeSettleUs]

/-- The transfer of `RCV`: one read of received-data, stored where there is an index (R100, R144). -/
theorem recvPhase_xfer_next {s t : State} {i : Nat} (hs : s.sub = .xfer) (hi : bufIndex s.remaining = some i) :
    recvPhase s = .next t ↔ s.window ≠ none ∧ ∃ v e, s.env.answer s.cfg s.draws .rxdata = .ok (v, e) ∧
      t = storeByte i v (received .rxdata v e s) := by
  constructor
  · intro h
    rcases recvPhase_next h with ⟨h1, _⟩ | ⟨h1, _⟩ | ⟨_, j, v, u, hj, hr, rfl⟩
    · cases hs.symm.trans h1
    · cases hs.symm.trans h1
    · obtain ⟨hw, e, he, rfl⟩ := regRead_ok.1 hr
      cases hi.symm.trans hj
      exact ⟨hw, v, e, he, rfl⟩
  · rintro ⟨hw, v, e, he, rfl⟩
    simp only [recvPhase, hs, hi, regRead_ok.2 ⟨hw, e, he, rfl⟩]

theorem asksOnce_recvPhase : AsksOnce recvPhase s := by
  cases hs : s.sub
  case poll => exact (asksOnce_pollRead .rcv s.cfg.rxReady).congr fun e => by simp only [recvPhase, hs]
  case pollWait => exact asksOnce_nothing (pollWait_envFree .rcv) fun e => by simp only [recvPhase, hs]
  case settle => exact .inl fun e t h => by simp [recvPhase, hs] at h
  case xfer =>
    cases hb : bufIndex s.remaining with
    | none => exact .inl fun e t h => by simp [recvPhase, hs, hb] at h
    | some i =>
      exact asksOnce_read (storeByte_envFree i) (fun v u => by rw [storeByte_eq]) fun e t =>
        recvPhase_xfer_next (s := { s with env := e }) hs hb

theorem asksOnce_awaitStart : AsksOnce awaitStart s := by
  by_cases hh : ∃ rest, s.host = .loadStart :: rest
  · obtain ⟨rest, hh⟩ := hh
    by_cases hw : s.window = none
    · exact .inl fun e t h => by simp [awaitStart, hh, beginLoad, hw] at h
    · exact asksOnce_nothing (k := fun u => { u with
        host := rest, done := false, err := .ok, buf := [], phase := .initDisable, sub := .poll }) (fun _ _ => rfl)
        fun e => awaitStart_begins (s := { s with env := e }) hh hw
  · exact asksOnce_nothing (k := id) (fun _ _ => rfl) fun e =>
      awaitStart_waits (s := { s with env := e }) fun rest hr => hh ⟨rest, hr⟩

end

/-- Whatever its instruction, a step of the controller or of the block asks the environment once at most. -/
theorem exec_asksOnce (i : Instr) (s : State) : AsksOnce (exec i) s := by
  cases i
  case start | rstart | wSelW | wSelR => exact asksOnce_takeAddress _ _
  case data | dataStop | wOffset | wCont | wLast => exact asksOnce_takeData _ _
  case idle | done => exact asksOnce_awaitStart
  case initSettle =>
    exact asksOnce_nothing (k := fun u => (delay 10 u).goto .preAck .poll) (fun _ _ => rfl) fun _ => rfl
  case selW => exact (asksOnce_sendPhase (w := siteWord s.cfg .selW) fun _ _ => rfl).congr fun _ => rfl
  case offset => exact (asksOnce_sendPhase (w := siteWord s.cfg .offset) fun _ _ => rfl).congr fun _ => rfl
  case selR =>
    exact (asksOnce_sendPhase (p := .selR) (w := siteWord s.cfg .selR)
      (k := fun t => (t.setRemaining (BitVec.ofNat 9 Config.eepromSize)).enterPoll .req)
      fun _ _ => rfl).congr fun _ => rfl
  case req => exact (asksOnce_sendPhase (w := siteWord s.cfg (reqSite s.remaining)) fun _ _ => rfl).congr fun _ => rfl
  case rcv => exact asksOnce_recvPhase
  case finDisable =>
    refine (asksOnce_write (k := fun u => u.endLoad.goto .done .poll) fun u e => ?_).congr fun _ => rfl
    simp only [State.endLoad_eq]
    rfl
  case initEnable => exact (asksOnce_write (v := s.cfg.ctrlEnable) fun _ _ => rfl).congr fun _ => rfl
  case initDisable | initClklow | initClkhigh | initHold | initAck | preAck =>
    exact asksOnce_write fun _ _ => rfl

/-- Settles O36: the oracle answers what the environment has answered. -/
theorem everyStepIsAnOracleStep : Obligations.EveryStepIsAnOracleStep := by
  intro i s t h
  rcases exec_asksOnce i s with hstop | ⟨a, g, hiff, _⟩
  · exact absurd h (hstop s.env t)
  · obtain ⟨v, e', he, rfl⟩ := (hiff s.env t).1 h
    obtain ⟨tape, e'', hlen, hor⟩ := oracle_serves he
    exact ⟨tape, { g v with env := e'' }, hlen, (hiff _ _).2 ⟨v, e'', hor, rfl⟩, rfl⟩

/-- Settles O37: equal traces mean equal answers. -/
theorem sameAnswersSameState : Obligations.SameAnswersSameState := by
  intro i s t t' e h h' htr
  rcases exec_asksOnce i s with hstop | ⟨a, g, hiff, hg⟩
  · exact absurd h (hstop s.env t)
  · obtain ⟨v, e1, _, rfl⟩ := (hiff s.env t).1 h
    obtain ⟨w, e2, _, rfl⟩ := (hiff e t').1 h'
    rw [hg v w htr]

end Sys2Proof.Machine
end

section
/-! A LOAD whose polls are all ready at once performs its script, one event after the other (R127, R146). -/

namespace Sys2Proof.Machine

/-! The script. -/

/-- The kinds of events a LOAD makes while its polls are ready at once (R57). -/
inductive Act where
  | write | command | poll | fetch | wait

/-- An event of a kind; the write of a register other than command is of kind `write`. -/
def Act.Is (c : Config) : Act → Event → Prop
  | .write, ev => ∃ r v, r ≠ .cmd ∧ ev = .w (c.off r) v
  | .command, ev => ∃ v, ev = .w c.offCmd v
  | .poll, ev => ∃ v, ev = .r (c.off c.offPoll) v
  | .fetch, ev => ∃ v, ev = .r c.offRxdata v
  | .wait, ev => ∃ us, ev = .d us

/-- A SEND (R99). -/
def sendActs : List Act := [.poll, .command, .wait]

/-- INIT, the second acknowledge and the three words of the selection (R98, R125). -/
def openingActs : List Act :=
  [.write, .write, .write, .write, .write, .write, .wait, .write] ++ sendActs ++ sendActs ++ sendActs

/-- A pass of the loop, a SEND and a RECV (R99, R100). -/
def passActs : List Act := sendActs ++ [.poll, .fetch]

/-- The last `n` passes of the loop and the disabling write (R125). -/
def loopActs : Nat → List Act
  | 0 => [.write]
  | n + 1 => passActs ++ loopActs n

/-- What is ahead at the start of a phase with `r` bytes to come. -/
def actsFrom (r : Nat) : Phase → List Act
  | .initDisable => openingActs ++ loopActs 256
  | .initClklow => openingActs.drop 1 ++ loopActs 256
  | .initClkhigh => openingActs.drop 2 ++ loopActs 256
  | .initHold => openingActs.drop 3 ++ loopActs 256
  | .initAck => openingActs.drop 4 ++ loopActs 256
  | .initEnable => openingActs.drop 5 ++ loopActs 256
  | .initSettle => openingActs.drop 6 ++ loopActs 256
  | .preAck => openingActs.drop 7 ++ loopActs 256
  | .selW => openingActs.drop 8 ++ loopActs 256
  | .offset => openingActs.drop 11 ++ loopActs 256
  | .selR => openingActs.drop 14 ++ loopActs 256
  | .req => loopActs r
  | .rcv => (loopActs r).drop 3
  | .finDisable => loopActs 0
  | .idle | .done => []

/-- How many events of its phase a sub-phase has behind it. -/
def eventsBehind : Sub → Nat
  | .poll | .pollWait => 0
  | .xfer => 1
  | .settle => 2

/-- What is ahead of the block. -/
def State.acts (s : State) : List Act := (actsFrom s.remaining.toNat s.phase).drop (eventsBehind s.sub)

def Act.isCommand : Act → Bool
  | .command => true
  | .write | .poll | .fetch | .wait => false

/-- The steps ahead: one for each event, and one in which the controller takes each command. -/
def State.stepsAhead (s : State) : Nat :=
  s.acts.length + s.acts.countP Act.isCommand + if s.inFlight = none then 0 else 1

/-- The block is inside a LOAD, alone with the controller, and no poll has failed to be ready at once. -/
structure OnScript (s : State) : Prop where
  inv : Inv s
  host : s.host = []
  noWait : s.sub ≠ .pollWait
  err : s.err = .ok
  started : s.phase ≠ .idle

/-- If the next access is a poll read, it shows the awaited bit. -/
def ReadyAtOnce (s : State) : Prop :=
  s.phase ∈ pollPhases → ∀ v e, s.env.answer s.cfg s.draws s.cfg.offPoll = .ok (v, e) →
    ready (awaited s.cfg s.phase) v = true

/-- A sending phase makes the three events of a SEND before the next phase (R99). -/
theorem actsFrom_send {p q : Phase} {r : Nat} (h : (p, q) ∈ settleRows) (hr : p = .req → 1 ≤ r) :
    actsFrom r p = .poll :: .command :: .wait :: actsFrom (if q = .req then 256 else r) q := by
  simp only [settleRows, List.mem_cons, Prod.mk.injEq, List.not_mem_nil, or_false] at h
  rcases h with ⟨rfl, rfl⟩ | ⟨rfl, rfl⟩ | ⟨rfl, rfl⟩ | ⟨rfl, rfl⟩
  case inr.inr.inr =>
    obtain ⟨n, rfl⟩ := Nat.exists_eq_add_of_le' (hr rfl)
    rfl
  all_goals rfl

/-- `RCV` makes the two events of a RECV before the next pass, or the end (R100). -/
theorem actsFrom_rcv {r : Nat} (hr : 1 ≤ r) : actsFrom r .rcv = .poll :: .fetch :: loopActs (r - 1) := by
  obtain ⟨n, rfl⟩ := Nat.exists_eq_add_of_le' hr
  rfl

/-- A single write comes before the next phase (R129 to R134, R136, R142). -/
theorem actsFrom_write {c : Config} {p q : Phase} {g : Reg} {v : Word} (r : Nat) (h : (p, g, v, q) ∈ writeRows c) :
    actsFrom r p = .write :: actsFrom r q ∧ g ≠ .cmd ∧ p ∉ pollPhases ∧ q ≠ .idle := by
  simp only [writeRows, List.mem_cons, Prod.mk.injEq, List.not_mem_nil, or_false] at h
  rcases h with h | h | h | h | h | h | h | h <;> obtain ⟨rfl, rfl, rfl, rfl⟩ := h <;>
    exact ⟨rfl, by decide, by decide, by decide⟩

section
variable {s t : State} (hs : OnScript s) (hd : s.phase ≠ .done) (hr : ReadyAtOnce s)
include hs hd hr

/-- A step of the block makes the next event of the script, a command write putting its word in flight. -/
theorem OnScript.phaseStep (hf : s.inFlight = none) (h : PhaseStep s t) : OnScript t ∧
    ∃ a ev, s.acts = a :: t.acts ∧ a.Is s.cfg ev ∧ t.trace = s.trace ++ [ev] ∧
      (t.inFlight = none ↔ a.isCommand = false) := by
  have hi := h.keeps_inv hs.inv hf
  have hreq : s.phase = .req → 1 ≤ s.remaining.toNat := fun hp => hs.inv.remainingPos (.inl hp)
  have hsub : s.phase ∉ pollPhases → s.sub = .poll := hs.inv.subPoll
  have hnone : ∀ a : Act, a.isCommand = false → (s.inFlight = none ↔ a.isCommand = false) := fun a ha => by
    simp [hf, ha]
  cases h <;> subst t
  case waits hp => exact absurd hp (by simp [hs.started, hd])
  case begins hp _ _ _ => exact absurd hp (by simp [hs.started, hd])
  case fails hw _ => exact absurd hw hs.noWait
  case counts hw _ => exact absurd hw hs.noWait
  case writes r v q e hrow _ _ =>
    obtain ⟨ha, hc, hp, hq⟩ := actsFrom_write s.remaining.toNat hrow
    refine ⟨⟨hi, hs.host, by simp, hs.err, hq⟩, .write, _, ?_, ⟨r, v, hc, rfl⟩, rfl, hnone _ rfl⟩
    simp only [State.acts, hsub hp, ha]
    rfl
  case settles hp =>
    refine ⟨⟨hi, hs.host, by simp, hs.err, by simp⟩, .wait, _, ?_, ⟨_, rfl⟩, rfl, hnone _ rfl⟩
    simp only [State.acts, hp, hsub (by rw [hp]; decide)]
    rfl
  case polls hp hs' _ v e he =>
    have hv := hr hp v e he
    refine ⟨⟨hi, hs.host, by simp [hv], hs.err, hs.started⟩, .poll, _, ?_, ⟨v, rfl⟩, rfl, hnone _ rfl⟩
    simp only [State.acts, hs', hv, if_true]
    rcases List.mem_append.1 (show s.phase ∈ sendPhases ++ [.rcv] from hp) with h | h
    · obtain ⟨_, q, hq⟩ := sendPhase_rows h s.remaining
      rw [actsFrom_send hq hreq]
      rfl
    · obtain h : s.phase = .rcv := by simpa using h
      rw [h, actsFrom_rcv (hs.inv.remainingPos (.inr h))]
      rfl
  case sends hs' _ x e hx _ =>
    refine ⟨⟨hi, hs.host, by simp, hs.err, hs.started⟩, .command, _, ?_, ⟨_, rfl⟩, rfl, by simp [Act.isCommand]⟩
    obtain ⟨_, q, hq⟩ := sendPhase_rows (siteOf_some hx) s.remaining
    simp only [State.acts, hs', actsFrom_send hq hreq]
    rfl
  case moves hs' q hq =>
    have hidle : q ≠ .idle := by rintro rfl; simp [settleRows] at hq
    refine ⟨⟨hi, hs.host, by simp, hs.err, hidle⟩, .wait, _, ?_, ⟨_, rfl⟩, rfl, hnone _ rfl⟩
    simp only [State.acts, hs', actsFrom_send hq hreq]
    by_cases h : q = .req <;> simp [h, eventsBehind]
  case stores hp hs' _ h1 h2 v e _ =>
    have hidle : (if s.remaining = 1#9 then Phase.finDisable else .req) ≠ .idle := by split <;> decide
    refine ⟨⟨hi, hs.host, by simp, hs.err, hidle⟩, .fetch, _, ?_, ⟨v, rfl⟩, rfl, hnone _ rfl⟩
    simp only [State.acts, hs', hp, actsFrom_rcv h1]
    have hn : (s.remaining - 1#9).toNat = s.remaining.toNat - 1 := by bv_omega
    by_cases h : s.remaining = 1#9
    · simp [h, eventsBehind, actsFrom]
    · simp [h, eventsBehind, actsFrom, hn]

/-- A step makes the next events of the script, at most one, and is one of the steps ahead. -/
theorem OnScript.step (h : step s = .next t) : OnScript t ∧ s.stepsAhead = t.stepsAhead + 1 ∧
    ∃ as evs, s.acts = as ++ t.acts ∧ t.trace = s.trace ++ evs ∧ List.Forall₂ (Act.Is s.cfg) as evs := by
  rcases hs.inv.step_cases h with ⟨x, e, _, hf, _, rfl⟩ | ⟨hf, l, hl, hp⟩ | ⟨_, _, hh, _⟩
  · refine ⟨⟨stepKeepsInv _ _ hs.inv h, hs.host, hs.noWait, hs.err, hs.started⟩, ?_, [], [], rfl, by simp, .nil⟩
    simp [State.stepsAhead, hf, State.acts]
  · obtain rfl : l = s.host := hl.resolve_right fun h => by simp [hs.host] at h
    obtain ⟨ht, a, ev, ha, his, htr, hfl⟩ := hs.phaseStep hd hr hf hp
    refine ⟨ht, ?_, [a], [ev], ha, htr, .cons his .nil⟩
    cases hc : a.isCommand <;> simp [State.stepsAhead, hf, ha, hfl, hc] <;> omega
  · rw [hs.host] at hh
    cases hh

end

/-- Where what is said of the environment serves every access, shows every awaited bit at once and is kept, the LOAD makes
the events of its script, in the steps that are ahead, and succeeds. -/
theorem load_performs_script {A : State → Prop} (hserves : ∀ s, OnScript s → A s → Serves s)
    (hready : ∀ s, OnScript s → A s → ReadyAtOnce s)
    (hkeep : ∀ s t, OnScript s → A s → s.phase ≠ .done → step s = .next t → A t) {n : Nat} {s : State}
    (hs : OnScript s) (ha : A s) (hn : s.stepsAhead = n) :
    ∃ t evs, runSteps n s = .next t ∧ OnScript t ∧ A t ∧ t.phase = .done ∧ t.trace = s.trace ++ evs ∧
      List.Forall₂ (Act.Is s.cfg) s.acts evs := by
  induction n generalizing s with
  | zero =>
    by_cases hd : s.phase = .done
    · exact ⟨s, [], rfl, hs, ha, hd, by simp, by simp [State.acts, hd, actsFrom]⟩
    · obtain ⟨t, ht⟩ := hs.inv.goes_on hs.host (hserves s hs ha)
      have := (hs.step hd (hready s hs ha) ht).2.1
      omega
  | succ n ih =>
    by_cases hd : s.phase = .done
    · have hf : s.inFlight = none := by
        cases hf : s.inFlight with
        | none => rfl
        | some w =>
          obtain ⟨_, x, hx, _⟩ := hs.inv.flight w hf
          rw [hd] at hx
          cases hx
      simp [State.stepsAhead, State.acts, hd, hf, actsFrom] at hn
    · obtain ⟨u, hu⟩ := hs.inv.goes_on hs.host (hserves s hs ha)
      obtain ⟨hus, hlen, as, evs, hacts, htr, his⟩ := hs.step hd (hready s hs ha) hu
      obtain ⟨t, evs', hrun, hts, hat, hdone, htr', his'⟩ := ih hus (hkeep s u hs ha hd hu) (by omega)
      refine ⟨t, evs ++ evs', runSteps_cons hu hrun, hts, hat, hdone, by rw [htr', htr, List.append_assoc], ?_⟩
      rw [hacts]
      rw [step_cfg hu] at his'
      exact List.rel_append his his'

/-! What the script holds. -/

theorem countP_loopActs (p : Act → Bool) (n : Nat) :
    (loopActs n).countP p = n * passActs.countP p + [Act.write].countP p := by
  induction n with
  | zero => simp [loopActs]
  | succ n ih => rw [loopActs, List.countP_append, ih]; ring

/-- Events are counted by their kinds. -/
theorem countP_of_kinds {c : Config} {p : Event → Bool} {q : Act → Bool} (h : ∀ a ev, Act.Is c a ev → p ev = q a)
    {as : List Act} {evs : List Event} (hk : List.Forall₂ (Act.Is c) as evs) : evs.countP p = as.countP q := by
  induction hk with
  | nil => rfl
  | cons h1 _ ih => simp only [List.countP_cons, ih, h _ _ h1]

/-- A whole LOAD by the kinds of its events. -/
theorem countP_load (p : Act → Bool) :
    (openingActs ++ loopActs 256).countP p = openingActs.countP p + 256 * passActs.countP p + [Act.write].countP p := by
  rw [List.countP_append, countP_loopActs, Nat.add_assoc]

/-- At the start of a LOAD the block is on its script, all of which is ahead. -/
theorem onScript_of_atLoadStart {s : State} (hi : Inv s) (h : atLoadStart s) :
    OnScript s ∧ s.acts = openingActs ++ loopActs 256 ∧ s.stepsAhead = 1557 := by
  obtain ⟨ha, hp, hs⟩ := alone_of_atLoadStart hi h
  have hacts : s.acts = openingActs ++ loopActs 256 := by simp only [State.acts, hp, hs]; rfl
  refine ⟨⟨hi, ha.host, by simp [hs], hi.errPending (by rw [hp]; rfl) (by simp [hp]), by simp [hp]⟩, hacts, ?_⟩
  have hlen : s.acts.length = 1298 := by
    rw [← List.countP_true, hacts, countP_load]
    rfl
  rw [State.stepsAhead, hlen, hacts, countP_load, if_pos ha.flight]
  rfl

end Sys2Proof.Machine
end

section
/-! A LOAD under E2 with a device that answers (R148). -/

namespace Sys2Proof.Machine

theorem or_and_either (m k : Word) : (m ||| k) &&& m = m ∧ (m ||| k) &&& k = k := by
  constructor <;> ext i hi <;> simp only [BitVec.getElem_and, BitVec.getElem_or] <;> grind

/-- E2 stands behind the window as the block expects it, with `rom` in its EEPROM and no latency. -/
def UnderDevice (rom : Vector Byte 256) (s : State) : Prop :=
  ∃ e, s.env = .device e ∧ DeviceInv s e ∧ e.lag = [] ∧ e.rom = rom

/-- From `e` to `d` the EEPROM's content stays, and no latency comes in. -/
def KeepsRom (e d : Device) : Prop := d.rom = e.rom ∧ (e.lag = [] → d.lag = [])

section
variable {c : Config} {e d : Device}

theorem absorb_keepsRom {r : Reg} {v : Word} (h : e.absorb c r v = .ok d) : KeepsRom e d := by
  cases r <;> simp only [Device.absorb] at h
  case ctrl =>
    split at h
    · cases h; exact ⟨rfl, id⟩
    · split at h <;> cases h
      exact ⟨rfl, id⟩
  case scllow | sclhigh | sdahold =>
    split at h <;> cases h
    exact ⟨rfl, id⟩
  case isr | cmd => cases h; exact ⟨rfl, id⟩
  all_goals cases h

theorem answer_keepsRom {r : Reg} {v : Word} (h : e.answer c r = .ok (v, d)) : KeepsRom e d := by
  unfold Device.answer at h
  split at h
  · unfold Device.pollAnswer at h
    split at h <;> cases h
    · exact ⟨rfl, id⟩
    · rename_i hl
      exact ⟨rfl, fun h0 => by simp [h0] at hl⟩
  · split at h
    · split at h <;> cases h
      exact ⟨rfl, id⟩
    · cases h

theorem addressPhase_keepsRom {a : BitVec 7} {dir : Dir} (h : e.addressPhase a dir = .ok d) : KeepsRom e d := by
  unfold Device.addressPhase at h
  split at h <;> cases h
  exact ⟨rfl, id⟩

theorem moveByte_keepsRom {b : Byte} (h : e.moveByte b = some d) : KeepsRom e d := by
  unfold Device.moveByte at h
  split at h <;> cases h <;> exact ⟨rfl, id⟩

theorem dataPhase_keepsRom {b : Byte} {stop : Bool} (h : e.dataPhase b stop = .ok d) : KeepsRom e d := by
  unfold Device.dataPhase at h
  split at h
  · split at h
    · rename_i e' he'
      have hm := moveByte_keepsRom he'
      cases h
      cases stop <;> exact hm
    · cases h
  · cases h

/-- No access and no command replaces E2 or its EEPROM's content. -/
theorem device_serve {n : Nat} {a : Access} {v : Word} {e' : Env} (h : (Env.device e).serve c n a = .ok (v, e')) :
    ∃ d, e' = .device d ∧ KeepsRom e d := by
  cases a <;> simp only [Env.serve, except_map_ok] at h
  case nothing => cases h; exact ⟨e, rfl, rfl, id⟩
  case read r =>
    simp only [Env.answer] at h
    split at h <;> cases h
    rename_i ha
    exact ⟨_, rfl, answer_keepsRom ha⟩
  case write r w =>
    obtain ⟨_, h⟩ := h
    simp only [Env.absorb] at h
    split at h <;> cases h
    rename_i ha
    exact ⟨_, rfl, absorb_keepsRom ha⟩
  case address x dir =>
    obtain ⟨_, h⟩ := h
    simp only [Env.addressPhase] at h
    split at h <;> cases h
    rename_i ha
    exact ⟨_, rfl, addressPhase_keepsRom ha⟩
  case data b stop =>
    obtain ⟨_, h⟩ := h
    simp only [Env.dataPhase] at h
    split at h <;> cases h
    rename_i ha
    exact ⟨_, rfl, dataPhase_keepsRom ha⟩

end

/-- With a silent host a step asks the environment once at most, and leaves it as that access does. -/
theorem step_serve {s t : State} (hh : s.host = []) (h : step s = .next t) :
    ∃ a v, s.env.serve s.cfg s.draws a = .ok (v, t.env) := by
  obtain ⟨i, hi⟩ : ∃ i, exec i s = .next t := by
    rcases step_next h with ⟨_, i, _, _, hc⟩ | ⟨_, l, hl, hp⟩ | ⟨_, _, _, hh', _⟩
    · exact ⟨i, hc⟩
    · obtain rfl : l = s.host := hl.resolve_right fun h => by simp [hh] at h
      exact ⟨_, hp⟩
    · simp [hh] at hh'
  rcases exec_asksOnce i s with hstop | ⟨a, g, hiff, _⟩
  · exact absurd hi (hstop s.env t)
  · obtain ⟨v, e', he, rfl⟩ := (hiff s.env t).1 hi
    exact ⟨a, v, he⟩

section
variable {rom : Vector Byte 256} {s : State} (hs : OnScript s) (hu : UnderDevice rom s)
include hs hu

theorem UnderDevice.serves : Serves s := by
  obtain ⟨e, henv, hd, _⟩ := hu
  exact hd.serves hs.inv henv

/-- Enabled, E2 shows the transmit bit; at `RCV`, where a byte waits, the receive bit. -/
theorem UnderDevice.readyAtOnce : ReadyAtOnce s := by
  obtain ⟨e, henv, hd, hl, _⟩ := hu
  intro hp v e' he
  obtain ⟨htx, hrx, _, _⟩ := Config.ready_masks hs.inv.cfgWf
  obtain ⟨hpoll, _⟩ := deviceAnswersReads s.cfg s.draws e
  have hen := hd.enabled (List.mem_append_right _ hp)
  rw [henv, hpoll hl, if_pos hen] at he
  cases he
  rw [awaited]
  split
  · rename_i hrcv
    refine ready_of_and hrx ?_
    rw [(hd.atRcv hrcv).1, if_pos rfl]
    exact (or_and_either _ _).2
  · refine ready_of_and htx ?_
    exact (or_and_either _ _).1

theorem UnderDevice.step {t : State} (h : step s = .next t) : UnderDevice rom t := by
  obtain ⟨e, henv, hd, hl, hr⟩ := hu
  obtain ⟨a, v, hserve⟩ := step_serve hs.host h
  rw [henv] at hserve
  obtain ⟨d, hd', hr', hl'⟩ := device_serve hserve
  exact ⟨d, hd', (stepKeepsDeviceInv s e hs.inv henv hd).1 t d h hd', hl' hl, hr'.trans hr⟩

end

/-- Settles O53: the device invariant along the script, and what it says of the end. -/
theorem loadUnderReferenceDevice : Obligations.LoadUnderReferenceDevice := by
  intro s e hi hstart henv hpres hlag hr
  obtain ⟨hs, _, hsteps⟩ := onScript_of_atLoadStart hi hstart
  have hd : DeviceInv s e := by
    refine deviceInv_iff.2 ⟨⟨hpres, ?_, ?_, ?_, ?_, ?_⟩, hr, by rw [hstart.1]; trivial⟩ <;> rw [hstart.1] <;>
      exact fun h => absurd h (by decide)
  obtain ⟨t, evs, hrun, hts, ⟨d, htenv, htd, _, hrom⟩, htp, _⟩ := load_performs_script (fun _ => UnderDevice.serves)
    (fun _ => UnderDevice.readyAtOnce) (fun _ _ h hu _ => UnderDevice.step h hu) hs
    (show UnderDevice e.rom s from ⟨e, henv, hd, hlag, rfl⟩) hsteps
  obtain ⟨hen, hbus, hrx⟩ := htd.final htp
  obtain ⟨hptr, hbytes⟩ := htd.storedAll (.inr htp) hts.err
  have hcode : 5 ≤ t.phase.code.toNat := by rw [htp]; decide
  exact ⟨t, d, hrun, htp, hts.inv.doneIff.2 htp, hts.err, fun i h => hrom ▸ hbytes i h, htenv, hen, hbus, hrx, hptr,
    htd.clockLow (by omega), htd.clockHigh (by omega), htd.hold hcode⟩

end Sys2Proof.Machine
end

section
/-! A LOAD under E1 with nothing stuck (R146). -/

namespace Sys2Proof.Machine

/-- How many bytes E1 has given and which of its image are stored, in phase `p` of a LOAD. -/
def Gathered (s : State) (e : Double) : Phase → Prop
  | .idle | .initDisable => True
  | .initClklow | .initClkhigh | .initHold | .initAck | .initEnable | .initSettle | .preAck | .selW | .offset | .selR =>
    e.dataReads = 0
  | .req | .rcv =>
    e.dataReads = 256 - s.remaining.toNat ∧ ∀ i, i < 256 - s.remaining.toNat → s.buf.get? i = e.img[i]?
  | .finDisable | .done => ∀ i, i < 256 → s.buf.get? i = e.img[i]?

/-- E1 stands behind the window with the image `img` and nothing stuck, and polls do not read received-data. -/
structure DoubleInv (img : Vector Byte 256) (s : State) (e : Double) : Prop where
  env : s.env = .double e
  image : e.img = img
  notStuck : e.stuck = none
  pollReg : s.cfg.offPoll ≠ .rxdata
  gathered : Gathered s e s.phase

/-- A write other than the disabling one changes nothing but that it ends a poll. -/
theorem double_absorb {r : Reg} {v : Word} (h : ¬(r = .ctrl ∧ v = 0#32)) (c : Config) (e : Double) :
    (Env.double e).absorb c r v = .ok (.double { e with inPoll := false }) := by
  have h' : ¬(r = .ctrl ∧ v = Config.ctrlDisable) := h
  simp only [Env.absorb, Double.absorb, if_neg h']

theorem double_disable (c : Config) (e : Double) :
    (Env.double e).absorb c .ctrl 0#32 = .ok (.double { e with polls := 0, inPoll := false, dataReads := 0 }) := rfl

theorem double_take (x : Site) (e : Double) : (Env.double e).take x = .ok (.double e) := by
  cases x <;> rfl

section
variable {img : Vector Byte 256} {s : State} {e : Double} (hs : OnScript s) (hd : DoubleInv img s e)
include hs hd

/-- At `RCV` E1 has the byte of the pass. -/
theorem DoubleInv.byte (hp : s.phase = .rcv) : ∃ x, some x = e.img[256 - s.remaining.toNat]? ∧
    (Env.double e).answer s.cfg s.draws .rxdata =
      .ok (x.setWidth 32, .double { e with dataReads := e.dataReads + 1, inPoll := false }) := by
  have h1 := hs.inv.remainingPos (.inr hp)
  have hg := hd.gathered
  rw [hp] at hg
  have hlt : e.dataReads < 256 := by
    have hcount := hg.1
    omega
  have hx : e.img[e.dataReads]? = some e.img[e.dataReads] := Vector.getElem?_eq_getElem hlt
  refine ⟨_, ?_, (doubleAnswersReads s.cfg s.draws e hs.inv.cfgWf).2.2 hd.pollReg _ hx⟩
  rw [← hx, hg.1]

theorem DoubleInv.serves : Serves s := by
  refine ⟨fun x _ _ => ?_, fun r v q _ => ?_, fun v => ?_, ?_, fun hp _ => ?_⟩ <;> rw [hd.env]
  · exact ⟨_, double_take x e⟩
  · exact ⟨_, rfl⟩
  · exact ⟨_, rfl⟩
  · exact ⟨_, _, double_poll ..⟩
  · obtain ⟨x, _, h⟩ := hd.byte hs hp
    exact ⟨_, _, h⟩

theorem DoubleInv.readyAtOnce : ReadyAtOnce s := by
  intro _ v e' he
  rw [hd.env, double_poll] at he
  cases he
  obtain ⟨ht, hr⟩ := Double.pollAnswer_ready hs.inv.cfgWf (e := e) (k := e.pollNumber) (by simp [hd.notStuck])
  rw [awaited]
  split
  · exact hr
  · exact ht

/-- Every step of the block leaves E1 behind the window, and what it has given stored. -/
theorem DoubleInv.phaseStep {t : State} (hdone : s.phase ≠ .done) (h : PhaseStep s t) : ∃ d, DoubleInv img t d := by
  have hbyte := hd.byte hs
  obtain ⟨henv, himg, hstuck, hpoll, hg⟩ := hd
  cases h <;> subst t
  case waits hp => exact absurd hp (by simp [hs.started, hdone])
  case begins hp _ _ _ => exact absurd hp (by simp [hs.started, hdone])
  case fails hw _ => exact absurd hw hs.noWait
  case counts hw _ => exact absurd hw hs.noWait
  case writes r v q e' hr _ he =>
    obtain ⟨_, _, _, hne⟩ := Config.ready_masks hs.inv.cfgWf
    rw [henv] at he
    simp only [writeRows, List.mem_cons, Prod.mk.injEq, List.not_mem_nil, or_false] at hr
    rcases hr with h | h | h | h | h | h | h | h <;> obtain ⟨hp, rfl, rfl, rfl⟩ := h <;> rw [hp] at hg
    case inl =>
      cases (double_disable ..).symm.trans he
      exact ⟨_, rfl, himg, hstuck, hpoll, rfl⟩
    case inr.inr.inr.inr.inr.inr.inr =>
      cases (double_disable ..).symm.trans he
      exact ⟨_, rfl, himg, hstuck, hpoll, by simpa [Gathered, hs.err] using hg⟩
    all_goals
      cases (double_absorb (by simp [hne]) ..).symm.trans he
      exact ⟨_, rfl, himg, hstuck, hpoll, hg⟩
  case settles hp =>
    rw [hp] at hg
    exact ⟨e, henv, himg, hstuck, hpoll, hg⟩
  case polls v e' he =>
    rw [henv, double_poll] at he
    cases he
    exact ⟨_, rfl, himg, hstuck, hpoll, hg⟩
  case sends x e' _ he =>
    rw [henv] at he
    cases he
    exact ⟨_, rfl, himg, hstuck, hpoll, hg⟩
  case moves q hq =>
    refine ⟨e, henv, himg, hstuck, hpoll, ?_⟩
    simp only [settleRows, List.mem_cons, Prod.mk.injEq, List.not_mem_nil, or_false] at hq
    rcases hq with ⟨hp, rfl⟩ | ⟨hp, rfl⟩ | ⟨hp, rfl⟩ | ⟨hp, rfl⟩ <;> rw [hp] at hg
    case inr.inr.inl => exact ⟨hg, fun i hi => absurd hi (by simp)⟩
    all_goals exact hg
  case stores hp _ _ h1 h2 v e' he =>
    obtain ⟨x, hx, hfetch⟩ := hbyte hp
    rw [henv, hfetch] at he
    cases he
    rw [hp] at hg
    have hstored := stored_next hx hg.2
    refine ⟨_, rfl, himg, hstuck, hpoll, ?_⟩
    by_cases hlast : s.remaining = 1#9
    · simpa [hlast, Gathered] using hstored
    · have hrem : 256 - (s.remaining - 1#9).toNat = 256 - s.remaining.toNat + 1 := by bv_omega
      simp only [hlast, if_false, Gathered, hrem, hg.1]
      exact ⟨trivial, hstored⟩

theorem DoubleInv.step {t : State} (hdone : s.phase ≠ .done) (h : step s = .next t) : ∃ d, DoubleInv img t d := by
  rcases hs.inv.step_cases h with ⟨x, e', _, _, he, rfl⟩ | ⟨_, l, hl, hp⟩ | ⟨_, _, hh, _⟩
  · rw [hd.env, double_take] at he
    cases he
    exact ⟨e, rfl, hd.image, hd.notStuck, hd.pollReg, hd.gathered⟩
  · obtain rfl : l = s.host := hl.resolve_right fun h => by simp [hs.host] at h
    exact hd.phaseStep hs hdone hp
  · rw [hs.host] at hh
    cases hh

end

/-- One truth value for each kind of event. -/
def Act.pick (w k p f d : Bool) : Act → Bool
  | .write => w
  | .command => k
  | .poll => p
  | .fetch => f
  | .wait => d

/-- A LOAD makes 8 writes of other registers, 259 command writes, 515 poll reads, 256 data reads and 260 delays. -/
theorem countP_pick : ∀ w k p f d : Bool, (openingActs ++ loopActs 256).countP (Act.pick w k p f d) =
    8 * w.toNat + 259 * k.toNat + 515 * p.toNat + 256 * f.toNat + 260 * d.toNat := by
  simp only [countP_load]
  decide

section
variable {c : Config} {evs : List Event} (h : List.Forall₂ (Act.Is c) (openingActs ++ loopActs 256) evs)
include h

/-- A property that the kind of an event decides is counted by the kinds. -/
theorem countP_load_events {q : Event → Bool} (w k p f d : Bool) (hw : ∀ r v, r ≠ .cmd → q (.w (c.off r) v) = w)
    (hk : ∀ v, q (.w c.offCmd v) = k) (hp : ∀ v, q (.r (c.off c.offPoll) v) = p) (hf : ∀ v, q (.r c.offRxdata v) = f)
    (hd : ∀ us, q (.d us) = d) :
    evs.countP q = 8 * w.toNat + 259 * k.toNat + 515 * p.toNat + 256 * f.toNat + 260 * d.toNat := by
  have hkind : ∀ a ev, Act.Is c a ev → q ev = Act.pick w k p f d a := by
    rintro (_ | _ | _ | _ | _) ev hev
    · obtain ⟨r, v, hr, rfl⟩ := hev
      exact hw r v hr
    · obtain ⟨v, rfl⟩ := hev
      exact hk v
    · obtain ⟨v, rfl⟩ := hev
      exact hp v
    · obtain ⟨v, rfl⟩ := hev
      exact hf v
    · obtain ⟨us, rfl⟩ := hev
      exact hd us
  rw [countP_of_kinds hkind h, countP_pick]

/-- The counts of a LOAD whose polls are all ready at once (R146). -/
theorem load_counts (hc : c.wf = true) (hr : c.offPoll ≠ .rxdata) :
    evs.length = 1298 ∧ writes evs = 267 ∧ writesAt c.offCmd evs = 259 ∧ reads evs = 771 ∧
      readsAt (c.off c.offPoll) evs = 515 ∧ readsAt c.offRxdata evs = 256 ∧ delays evs = 260 := by
  have hoff : ∀ r (_ : Word), r ≠ .cmd → (c.off r == c.offCmd) = false := fun r _ hne =>
    beq_eq_false_iff_ne.2 fun h => hne ((off_inj hc (q := .cmd)).1 h)
  have hne := off_poll_ne hc hr
  refine ⟨?_, ?_, ?_, ?_, ?_, ?_, ?_⟩
  · rw [← List.countP_true]
    exact countP_load_events h true true true true true (fun _ _ _ => rfl) (fun _ => rfl) (fun _ => rfl)
      (fun _ => rfl) fun _ => rfl
  · exact countP_load_events h true true false false false (fun _ _ _ => rfl) (fun _ => rfl) (fun _ => rfl)
      (fun _ => rfl) fun _ => rfl
  · exact countP_load_events h false true false false false hoff (fun _ => beq_self_eq_true _) (fun _ => rfl) (fun _ => rfl)
      fun _ => rfl
  · exact countP_load_events h false false true true false (fun _ _ _ => rfl) (fun _ => rfl) (fun _ => rfl)
      (fun _ => rfl) fun _ => rfl
  · exact countP_load_events h false false true false false (fun _ _ _ => rfl) (fun _ => rfl) (fun _ => beq_self_eq_true _)
      (fun _ => beq_eq_false_iff_ne.2 hne.symm) fun _ => rfl
  · exact countP_load_events h false false false true false (fun _ _ _ => rfl) (fun _ => rfl)
      (fun _ => beq_eq_false_iff_ne.2 hne) (fun _ => beq_self_eq_true _) fun _ => rfl
  · exact countP_load_events h false false false false true (fun _ _ _ => rfl) (fun _ => rfl) (fun _ => rfl)
      (fun _ => rfl) fun _ => rfl

end

/-- Settles O50: what E1 has given along the script, and the kinds of its events. -/
theorem loadUnderIdealDouble : Obligations.LoadUnderIdealDouble := by
  intro s e hi hstart henv hstuck hr
  obtain ⟨hs, hacts, hsteps⟩ := onScript_of_atLoadStart hi hstart
  have hd : DoubleInv e.img s e := ⟨henv, rfl, hstuck, hr, by rw [hstart.1]; trivial⟩
  obtain ⟨t, evs, hrun, hts, ⟨d, htd⟩, htp, htr, hkinds⟩ := load_performs_script (A := fun u => ∃ d, DoubleInv e.img u d)
    (fun _ hu ⟨_, hd⟩ => hd.serves hu) (fun _ hu ⟨_, hd⟩ => hd.readyAtOnce hu) (fun _ _ hu ⟨_, hd⟩ => hd.step hu) hs ⟨e, hd⟩
    hsteps
  have hg := htd.gathered
  rw [htp] at hg
  rw [hacts] at hkinds
  exact ⟨t, evs, hrun, htp, hts.inv.doneIff.2 htp, hts.err, hts.inv.remainingEnd (.inr htp) hts.err,
    fun i h => htd.image ▸ hg i h, htr, load_counts hkinds hi.cfgWf hr⟩

end Sys2Proof.Machine
end

section
/-! The general forms of a command word: the decoder reads exactly the words of formats A and D, and loses no bit of them
(R71 to R76, R115 to R120). -/

namespace Sys2Proof

/-! A word by its bits above [7:0] and its low byte. -/

/-- The flags of the general forms, in the order of the decoder's tests: none, STOP, START, REPEATED-START (R71, R72). -/
def Config.formFlags (c : Config) : List Word := [0#32, c.cmdStop, c.cmdStart, c.cmdRstart]

theorem Config.formFlags_and_flagBits {c : Config} {f : Word} (hf : f ∈ c.formFlags) : f &&& c.flagBits = f := by
  simp only [formFlags, List.mem_cons, List.not_mem_nil, or_false] at hf
  rcases hf with rfl | rfl | rfl | rfl
  · exact BitVec.zero_and
  all_goals exact flag_and_flagBits (by simp)

theorem commandWf_iff {c : Config} {w : Word} : commandWf c w = true ↔ w &&& 0xFFFFFF00#32 ∈ c.formFlags := by
  simp only [commandWf, Config.formFlags, Bool.or_eq_true, beq_iff_eq, List.mem_cons, List.not_mem_nil, or_false]
  tauto

theorem high_or_low_byte (w : Word) : w &&& 0xFFFFFF00#32 ||| (w.extractLsb' 0 8).setWidth 32 = w := by
  have hlow : (w.extractLsb' 0 8).setWidth 32 = w &&& 0xFF#32 := by
    apply BitVec.eq_of_toNat_eq
    simp [Nat.and_two_pow_sub_one_eq_mod _ 8]
    omega
  rw [hlow, ← BitVec.and_or_distrib_left]
  exact BitVec.and_allOnes

/-- The flags a word carries are its bits above [7:0] (R71, R72, R75). -/
theorem MasksApart.carries_iff {c : Config} (h : MasksApart c) {w f : Word} (hf : f ∈ c.formFlags) :
    Carries c w f ↔ w &&& 0xFFFFFF00#32 = f := by
  constructor
  · rintro ⟨rfl, hout⟩
    have hlow := h.flagBits_low
    change w &&& ~~~0xFF#32 = _
    ext i hi
    have hout' := congrArg (·.getLsbD i) hout
    have hlow' := congrArg (·.getLsbD i) hlow
    simp only [BitVec.getLsbD_eq_getElem hi, BitVec.getElem_and, BitVec.getElem_or, BitVec.getElem_not,
      BitVec.getElem_zero] at hout' hlow' ⊢
    grind
  · intro hhigh
    have hw : f ||| (w.extractLsb' 0 8).setWidth 32 = w := by rw [← hhigh, high_or_low_byte]
    exact hw ▸ h.carries _ (Config.formFlags_and_flagBits hf)

/-! What the decoder reads. -/

/-- A general form that the decoder reads, with the flags its word carries (R74). -/
theorem decodeForm_ok {c : Config} {held : Bool} {w : Word} {i : Instr} (h : decodeForm c held w = .ok i) :
    (i = .data (w.extractLsb' 0 8) ∧ Carries c w 0#32) ∨ (i = .dataStop (w.extractLsb' 0 8) ∧ Carries c w c.cmdStop) ∨
    (i = .start (w.extractLsb' 1 7) (wordDir c w) ∧ Carries c w c.cmdStart) ∨
    (i = .rstart (w.extractLsb' 1 7) (wordDir c w) ∧ Carries c w c.cmdRstart) := by
  unfold decodeForm at h
  dsimp only at h
  split at h
  · cases h
  next hout =>
    have carries {f : Word} (hf : w &&& c.flagBits = f) : Carries c w f := ⟨hf, not_not.1 hout⟩
    split at h
    next hf => exact .inl ⟨(Except.ok.inj h).symm, carries hf⟩
    split at h
    next hf => exact .inr (.inl ⟨(Except.ok.inj h).symm, carries hf⟩)
    split at h
    next hf => exact .inr (.inr (.inl ⟨(Except.ok.inj h).symm, carries hf.1⟩))
    split at h
    next hf => exact .inr (.inr (.inr ⟨(Except.ok.inj h).symm, carries hf⟩))
    repeat' split at h
    all_goals cases h

/-- The decoder reads a word exactly when it carries the flags of a general form (R74, R75). -/
theorem MasksApart.decodeForm_reads_iff {c : Config} (h : MasksApart c) {held : Bool} {w : Word} :
    (∃ i, decodeForm c held w = .ok i) ↔ ∃ f ∈ c.formFlags, Carries c w f := by
  constructor
  · rintro ⟨i, hi⟩
    rcases decodeForm_ok hi with ⟨-, hf⟩ | ⟨-, hf⟩ | ⟨-, hf⟩ | ⟨-, hf⟩
    all_goals exact ⟨_, by simp [Config.formFlags], hf⟩
  · have hs0 := (flagMask_iff.1 h.start).1
    have hr0 := (flagMask_iff.1 h.rstart).1
    have hs := ne_of_and_eq_zero h.stopStart hs0
    have hr := ne_of_and_eq_zero h.stopRstart hr0
    rintro ⟨f, hf, hw⟩
    simp only [Config.formFlags, List.mem_cons, List.not_mem_nil, or_false] at hf
    rcases hf with rfl | rfl | rfl | rfl
    · exact ⟨_, decodeForm_noFlag hw⟩
    · exact ⟨_, decodeForm_stop hw (flagMask_iff.1 h.stop).1⟩
    · by_cases hsr : c.cmdStart ≠ c.cmdRstart ∨ held = false
      · exact ⟨_, decodeForm_start hw hs0 hs hsr⟩
      · -- equal masks on a held bus: the word is a REPEATED-START
        simp only [ne_eq, not_or, not_not, Bool.not_eq_false] at hsr
        exact ⟨_, decodeForm_rstart (hsr.1 ▸ hw) hr0 hr (.inr hsr.2)⟩
    · by_cases hsr : c.cmdStart ≠ c.cmdRstart ∨ held = true
      · exact ⟨_, decodeForm_rstart hw hr0 hr hsr⟩
      · simp only [ne_eq, not_or, not_not, Bool.not_eq_true] at hsr
        exact ⟨_, decodeForm_start (hsr.1.symm ▸ hw) hs0 hs (.inr hsr.2)⟩

/-- Settles O2: both sides say that the bits above [7:0] are the flags of a general form. -/
theorem decoderAcceptsExactlyTheFormats : Obligations.DecoderAcceptsExactlyTheFormats := by
  intro c held w hc
  have h := Config.wf_masksApart hc
  rw [h.decodeForm_reads_iff, commandWf_iff]
  constructor
  · rintro ⟨f, hf, hw⟩
    exact (h.carries_iff hf).1 hw ▸ hf
  · exact fun hf => ⟨_, hf, (h.carries_iff hf).2 rfl⟩

/-! Encoding what was read. -/

/-- A word that carries a form's flags is the format D word of its low byte (R72, R73). -/
theorem MasksApart.dataWord_of_carries {c : Config} (h : MasksApart c) {w f : Word} (hf : f ∈ c.formFlags)
    (hw : Carries c w f) : dataWord f (w.extractLsb' 0 8) = w := by
  rw [dataWord, ← (h.carries_iff hf).1 hw, high_or_low_byte]

/-- The direction read from a word has the word's direction bit, the two directions having different bits (R7, R73). -/
theorem dirBit_wordDir {c : Config} (hd : c.dirWrite ≠ c.dirRead) (w : Word) :
    c.dirBit (wordDir c w) = w.extractLsb' 0 1 := by
  unfold wordDir
  split
  next hw => exact hw.symm
  next hr =>
    change c.dirRead = _
    revert hd hr
    generalize c.dirWrite = x, c.dirRead = y, w.extractLsb' 0 1 = z
    revert x y z
    decide

/-- A word that carries a form's flags is the format A word of its address and direction (R71, R73). -/
theorem MasksApart.addressWord_of_carries {c : Config} (h : MasksApart c) {w f : Word} (hf : f ∈ c.formFlags)
    (hw : Carries c w f) : addressWord c f (w.extractLsb' 1 7) (wordDir c w) = w := by
  have hbyte : w.extractLsb' 1 7 ++ w.extractLsb' 0 1 = w.extractLsb' 0 8 :=
    BitVec.extractLsb'_append_extractLsb'_eq_extractLsb' rfl
  rw [addressWord, dirBit_wordDir h.dirs, hbyte]
  exact h.dataWord_of_carries hf hw

/-- Settles O3: each of the four forms by the flags its word carries. -/
theorem decodedWordReencodes : Obligations.DecodedWordReencodes := by
  intro c held w i hc hi
  have h := Config.wf_masksApart hc
  rcases decodeForm_ok hi with ⟨rfl, hw⟩ | ⟨rfl, hw⟩ | ⟨rfl, hw⟩ | ⟨rfl, hw⟩
  · exact congrArg Code.command (h.dataWord_of_carries (by simp [Config.formFlags]) hw)
  · exact congrArg Code.command (h.dataWord_of_carries (by simp [Config.formFlags]) hw)
  · exact congrArg Code.command (h.addressWord_of_carries (by simp [Config.formFlags]) hw)
  · exact congrArg Code.command (h.addressWord_of_carries (by simp [Config.formFlags]) hw)

/-! The five emitted words. -/

/-- A format A word as flag, shifted address and direction bit (R71, R76). -/
theorem addressWord_eq (c : Config) (f : Word) (a : BitVec 7) (d : Dir) :
    addressWord c f a d = f ||| (a.setWidth 32 <<< 1) ||| (c.dirBit d).setWidth 32 := by
  have hfields : (a ++ c.dirBit d).setWidth 32 = a.setWidth 32 <<< 1 ||| (c.dirBit d).setWidth 32 := by
    generalize c.dirBit d = x
    revert a x
    decide
  rw [addressWord, hfields, BitVec.or_assoc]

theorem Config.wf_masksWf {c : Config} (h : c.wf = true) : c.masksWf = true := by
  simp only [Config.wf, Bool.and_eq_true] at h
  obtain ⟨⟨⟨⟨_, hm⟩, _⟩, _⟩, _⟩ := h
  exact hm

/-- An emitted word is never reserved (R120). -/
theorem siteWord_wf {c : Config} (h : c.masksWf = true) : ∀ x, commandWf c (siteWord c x) = true
  | .selW => Laws.EncodesWellFormed.wSelW c h
  | .offset => Laws.EncodesWellFormed.wOffset c h
  | .selR => Laws.EncodesWellFormed.wSelR c h
  | .cont => Laws.EncodesWellFormed.wCont c h
  | .last => Laws.EncodesWellFormed.wLast c h

/-- Settles O5: format A by its fields, format D with the byte 0. -/
theorem emittedWordsAreTheFiveOfTheSpec : Obligations.EmittedWordsAreTheFiveOfTheSpec := fun c hc =>
  ⟨addressWord_eq c c.cmdStart Config.eepromAddr .w, rfl, addressWord_eq c c.cmdRstart Config.eepromAddr .r, rfl,
    BitVec.or_zero, siteWord_wf (Config.wf_masksWf hc)⟩

/-! Words written out in the spec. -/

/-- Settles O4: ten of the codes are what the encoder makes of the instruction they stand for, so O1 reads them back in
the instruction's context; DATA.STOP is asked on a held bus, and the two reserved words have no instruction. -/
theorem specWordsDecode : Obligations.SpecWordsDecode := by
  have hstd : Config.std.wf = true := by decide
  have reads (i : Instr) := decodeOfEncodeIsTheInstruction Config.std i hstd
  exact ⟨reads (.start 0x51#7 .w), reads (.rstart 0x51#7 .r), reads (.data 0xA2#8),
    decodeForm_dataWord_stop (Config.wf_masksApart hstd) true 0xFF#8, reads .wSelW, reads .wOffset, reads .wSelR,
    reads .wCont, reads .wLast, by decide, by decide,
    decodeOfEncodeIsTheInstruction { Config.std with cmdRstart := 0x400#32 } (.rstart 0x51#7 .r) (by decide), reads .req⟩

end Sys2Proof
end

section
/-! Sub-phase POLL of the sending phases. -/

namespace Sys2Proof.Machine

/-- In sub-phase `POLL` a sending phase only reads the poll register for `TX_READY` (R99). -/
theorem exec_send_poll {s : State} (hs : s.sub = .poll) {p : Phase} (hp : p ∈ sendPhases) :
    exec p.instr s = pollRead p s.cfg.txReady s := by
  simp only [sendPhases, List.mem_cons, List.not_mem_nil, or_false] at hp
  rcases hp with rfl | rfl | rfl | rfl <;>
    simp only [Phase.instr, exec, execSelW, execOffset, execSelR, execReq, sendPhase, hs]

/-- Settles O20: the poll read, with the state after it written out. -/
theorem sendPhasesPollTheTransmitBit : Obligations.SendPhasesPollTheTransmitBit := by
  intro s v e hw hs he p hp
  rw [exec_send_poll hs hp]
  refine pollRead_next.2 ⟨hw, v, e, he, ?_⟩
  simp only [received_eq, State.goto, ready, bne_iff_ne, ne_eq]

end Sys2Proof.Machine
end

section
/-! Sub-phases `POLL_WAIT` and `XFER` of the polling phases, and `FIN_DISABLE`, whatever phase the state is in. -/

namespace Sys2Proof.Machine

section
variable {s : State} {p : Phase}

/-- In sub-phase `POLL_WAIT` a polling phase waits and counts (R91). -/
theorem exec_pollWait (hs : s.sub = .pollWait) (hp : p ∈ pollPhases) : exec p.instr s = .next (pollWait p s) := by
  simp only [pollPhases, List.mem_cons, List.not_mem_nil, or_false] at hp
  rcases hp with rfl | rfl | rfl | rfl | rfl <;>
    simp only [Phase.instr, exec, execSelW, execOffset, execSelR, execReq, execRcv, sendPhase, recvPhase, hs]

/-- In sub-phase `XFER` a sending phase writes the word of its site to command (R99). -/
theorem exec_send_xfer {x : Site} (hs : s.sub = .xfer) (hx : siteOf p s.remaining = some x) :
    exec p.instr s = thenDo (regWrite .cmd (siteWord s.cfg x) s) fun t => .next (t.goto p .settle) := by
  have hp := siteOf_some hx
  simp only [sendPhases, List.mem_cons, List.not_mem_nil, or_false] at hp
  rcases hp with rfl | rfl | rfl | rfl <;> cases hx <;>
    simp only [Phase.instr, exec, execSelW, execOffset, execSelR, execReq, sendPhase, hs]

end

/-- Settles O21: the wait, below the bound and at it. -/
theorem pollWaitCountsAndFails : Obligations.PollWaitCountsAndFails := by
  intro s hs p hp
  rw [exec_pollWait hs hp]
  exact ⟨fun h => congrArg _ (pollWait_fails h), fun h => congrArg _ (pollWait_counts h)⟩

/-- The two words of `REQ` are those of its two sites (R140). -/
theorem siteOf_req {r : BitVec 9} :
    (r = 1#9 → siteOf .req r = some .last) ∧ (r ≠ 1#9 → siteOf .req r = some .cont) :=
  ⟨fun h => congrArg some (if_pos h), fun h => congrArg some (if_neg h)⟩

/-- Settles O22: each word is that of the site of its phase, and is written to command. -/
theorem sendPhasesWriteTheirWord : Obligations.SendPhasesWriteTheirWord := by
  intro s e p w hw hs hword he
  obtain ⟨x, hx, rfl⟩ : ∃ x, siteOf p s.remaining = some x ∧ w = siteWord s.cfg x := by
    rcases hword with ⟨rfl, h⟩ | ⟨rfl, h⟩ | ⟨rfl, h⟩ | ⟨rfl, hr, h⟩ | ⟨rfl, hr, h⟩
    · exact ⟨_, rfl, h⟩
    · exact ⟨_, rfl, h⟩
    · exact ⟨_, rfl, h⟩
    · exact ⟨_, siteOf_req.1 hr, h⟩
    · exact ⟨_, siteOf_req.2 hr, h⟩
  rw [exec_send_xfer hs hx]
  exact thenDo_next.2 ⟨_, regWrite_next.2 ⟨hw, e, he, rfl⟩, rfl⟩

/-- Settles O24: the poll read, and the transfer at the index `256 - remaining`. -/
theorem rcvStoresTheLowByte : Obligations.RcvStoresTheLowByte := by
  refine fun s v e hw => ⟨fun hs he => ?_, fun hs h1 h2 he => ?_⟩
  · have hexec : exec .rcv s = pollRead .rcv s.cfg.rxReady s := by simp only [exec, execRcv, recvPhase, hs]
    rw [hexec]
    refine pollRead_next.2 ⟨hw, v, e, he, ?_⟩
    simp only [received_eq, State.goto, ready, bne_iff_ne, ne_eq]
  · have hi : bufIndex s.remaining = some (256 - s.remaining.toNat) := (bufIndex_some _ _).2 ⟨h1, h2, rfl⟩
    refine (recvPhase_xfer_next hs hi).2 ⟨hw, v, e, he, ?_⟩
    rw [storeByte_eq, lowByte_eq]
    rfl

/-- Settles O27: the disabling write, then the end of the LOAD as one update. -/
theorem finDisableEndsTheLoad : Obligations.FinDisableEndsTheLoad := by
  intro s e hw he
  refine thenDo_next.2 ⟨_, regWrite_next.2 ⟨hw, e, he, rfl⟩, ?_⟩
  rw [State.endLoad_eq, written_eq (by decide)]
  rfl

end Sys2Proof.Machine
end

section
/-! INIT under every environment (R98). -/

namespace Sys2Proof.Machine

/-- Every environment absorbs the writes that come before the first poll: the timing registers are written after the
disabling write and before the enabling one (R98, R195). -/
theorem initWrites_absorbed {c : Config} (hc : c.wf = true) (e : Env) :
    ∃ e', Env.absorbs c (initWrites c) e e' := by
  cases e with
  | oracle tape => exact ⟨.oracle tape, by simp [initWrites, Env.absorbs, oracle_absorb]⟩
  | double e => exact ⟨_, e.init_absorbs hc⟩
  | device e =>
    obtain ⟨_, _, _, hen⟩ := Config.ready_masks hc
    exact ⟨.device { e with
      cEn := true, bus := .idle, rxValid := false, tLow := 500#32, tHigh := 500#32, tHold := 30#32 },
      by simp [initWrites, Env.absorbs, Env.absorb, Device.absorb, Config.ctrlDisable, hen.symm]⟩

/-- In `n` steps the block has gone from `s` to the start of phase `q`, with the events `evs`; beside the phase only the
register cells and the environment, now `e`, have changed. -/
def InitRun (s : State) (n : Nat) (q : Phase) (e : Env) (evs : List Event) : Prop :=
  ∃ g, runSteps n s = .next { s with phase := q, sub := .poll, env := e, regs := g, trace := s.trace ++ evs }

section
variable {s : State} (ha : Alone s)
include ha

theorem InitRun.write {n : Nat} {p : Phase} {e e' : Env} {evs : List Event} (h : InitRun s n p e evs) {r : Reg} {v : Word}
    (q : Phase) (hr : (p, r, v, q) ∈ writeRows s.cfg) (hq : q ≠ .selW ∧ q ≠ .done) (he : e.absorb s.cfg r v = .ok e') :
    InitRun s (n + 1) q e' (evs ++ [.w (s.cfg.off r) v]) := by
  obtain ⟨g, hrun⟩ := h
  refine ⟨g.set r v, runSteps_trans hrun ((runSteps_one _).trans ?_)⟩
  rw [step_write (r := r) (v := v) (q := q) (e := e') (by exact ⟨ha.flight, ha.host, ha.window⟩) (by exact hr)
    (by exact he)]
  simp [hq]

/-- The first write, from whatever sub-phase. -/
theorem initRun_first {e : Env} (hp : s.phase = .initDisable) (he : s.env.absorb s.cfg .ctrl 0#32 = .ok e) :
    InitRun s 1 .initClklow e [.w s.cfg.offCtrl 0#32] :=
  ⟨_, (runSteps_one s).trans (step_write (q := .initClklow) ha (by simp [writeRows, hp]) he)⟩

theorem InitRun.settle {n : Nat} {e : Env} {evs : List Event} (h : InitRun s n .initSettle e evs) :
    InitRun s (n + 1) .preAck e (evs ++ [.d 10]) := by
  obtain ⟨g, hrun⟩ := h
  refine ⟨g, runSteps_trans hrun ((runSteps_one _).trans ?_)⟩
  rw [step_phase _ (by exact ha.flight) (by exact ha.host), ← List.append_assoc]
  rfl

end

/-- Settles O45: the six writes one after the other, all absorbed, and the delay. -/
theorem initPerformsItsSequence : Obligations.InitPerformsItsSequence := by
  rintro s hc ⟨hp, hf, hh⟩ hw
  have ha : Alone s := ⟨hf, hh, hw⟩
  obtain ⟨_, _, a1, _, a2, _, a3, _, a4, _, a5, _, a6, _⟩ := initWrites_absorbed hc s.env
  have w1 := initRun_first ha hp a1
  have w2 := w1.write ha .initClkhigh (by simp [writeRows]) (by decide) a2
  have w3 := w2.write ha .initHold (by simp [writeRows]) (by decide) a3
  have w4 := w3.write ha .initAck (by simp [writeRows]) (by decide) a4
  have w5 := w4.write ha .initEnable (by simp [writeRows]) (by decide) a5
  have w6 := w5.write ha .initSettle (by simp [writeRows]) (by decide) a6
  obtain ⟨g, hrun⟩ := w6.settle ha
  exact ⟨_, hrun, rfl, rfl, rfl, rfl, rfl, rfl, rfl, rfl⟩

end Sys2Proof.Machine
end

section
/-! A poll under E0, answer by answer (R91). -/

namespace Sys2Proof.Machine

/-- E0 gives the answers of its tape in order (R60). -/
theorem oracle_reads (c : Config) (r : Reg) (vs rest : List Word) :
    Env.reads c r vs (.oracle (vs ++ rest)) (.oracle rest) := by
  induction vs with
  | nil => rfl
  | cons v vs ih => exact ⟨.oracle (vs ++ rest), fun n => oracle_answer_cons c n r v _, ih⟩

/-- Settles O46: the tape gives a poll that never shows its bit. -/
theorem pollTimesOutExactly : Obligations.PollTimesOutExactly := by
  intro s answers rest hp hs hc hf hh hw henv hlen hclear
  have hne : answers ≠ [] := by rintro rfl; simp at hlen
  have hreads := oracle_reads s.cfg s.cfg.offPoll answers rest
  obtain ⟨g, hrun⟩ := poll_times_out (e := .oracle rest) ⟨hf, hh, hw⟩ hp hs hne (by simp [hc, hlen]) (henv ▸ hreads)
    fun v hv => not_ready_of_and (hclear v hv)
  rw [hlen] at hrun
  exact ⟨_, hrun, rfl, rfl, rfl, rfl, rfl, rfl, rfl, rfl, hf, rfl⟩

/-- A poll whose reads, fewer than the bound, all show its bit clear makes these reads, each with its wait, and is where it
began but for the count (R91). -/
theorem poll_counts {s : State} {vs : List Word} {e : Env} (ha : Alone s) (hp : s.phase ∈ pollPhases)
    (hs : s.sub = .poll) (hc : s.pollCnt.toNat + vs.length < 100000)
    (he : Env.reads s.cfg s.cfg.offPoll vs s.env e) (hv : ∀ v ∈ vs, ready (awaited s.cfg s.phase) v = false) :
    ∃ g n, n.toNat = s.pollCnt.toNat + vs.length ∧ runSteps (2 * vs.length) s = .next { s with
      pollCnt := n, env := e, regs := g, trace := s.trace ++ waits s.cfg vs, draws := s.draws + vs.length } := by
  induction vs generalizing s with
  | nil =>
    obtain rfl : s.env = e := he
    exact ⟨s.regs, s.pollCnt, rfl, by simp [runSteps_zero, waits]⟩
  | cons v vs ih =>
    obtain ⟨u, hu, hrest⟩ := he
    obtain ⟨hv1, hv2⟩ := List.forall_mem_cons.1 hv
    rw [List.length_cons] at hc
    have hcnt : s.pollCnt + 1#17 ≠ 100000#17 ∧ (s.pollCnt + 1#17).toNat = s.pollCnt.toNat + 1 := by
      constructor <;> bv_omega
    have hone := runSteps_counts ha hp hs (hu _) hv1 hcnt.1
    obtain ⟨g, n, hn, hg⟩ := ih (s := { s with
      sub := .poll, pollCnt := s.pollCnt + 1#17, env := u, regs := s.regs.set s.cfg.offPoll v,
      trace := s.trace ++ waits s.cfg [v], draws := s.draws + 1 })
      ⟨ha.flight, ha.host, ha.window⟩ hp rfl (by simp only [hcnt.2]; omega) hrest hv2
    refine ⟨g, n, by simp only [hn, hcnt.2, List.length_cons]; omega, ?_⟩
    rw [List.length_cons, Nat.mul_succ, Nat.add_comm _ 2, runSteps_trans hone hg]
    simp [waits, hs, Nat.add_assoc, Nat.add_comm 1]

/-- Settles O47: the not-ready answers leave the poll where it began, the ready one ends it. -/
theorem pollSucceedsWithinItsBound : Obligations.PollSucceedsWithinItsBound := by
  intro s answers rest w hp hs hc hf hh hw henv hlt hclear hready
  have hreads := oracle_reads s.cfg s.cfg.offPoll answers (w :: rest)
  obtain ⟨g, n, hn, hrun⟩ := poll_counts (e := .oracle (w :: rest)) ⟨hf, hh, hw⟩ hp hs (by simpa [hc] using hlt)
    (henv ▸ hreads) fun v hv => not_ready_of_and (hclear v hv)
  have hbit : ready (awaited s.cfg s.phase) w = true := by simpa [ready] using hready
  refine ⟨_, runSteps_trans hrun ((runSteps_one _).trans (step_poll (by exact ⟨hf, hh, hw⟩) (by exact hp) (by exact hs)
    (oracle_answer_cons s.cfg _ _ w rest))), rfl, if_pos hbit, rfl, ?_, rfl, rfl, rfl, hf, rfl⟩
  simpa [hc] using hn

end Sys2Proof.Machine
end

section
/-! A LOAD ends: the most steps that can be ahead of the block, which every step makes fewer (R149). -/

namespace Sys2Proof.Machine

/-! The most steps ahead. -/

/-- The most steps one event of the script can take: a poll has 99999 not-ready reads with their waits before its ready one
(R91), a command write has the controller's step behind it. -/
def Act.mostSteps : Act → Nat
  | .poll => 2 * 99999 + 1
  | .command => 2
  | .write | .fetch | .wait => 1

def mostSteps (as : List Act) : Nat := (as.map Act.mostSteps).sum

/-- What the running poll has used up: a read and a wait for each count, and the read that a wait follows. -/
def State.pollSpent (s : State) : Nat :=
  match s.sub with
  | .poll => if s.phase ∈ pollPhases then 2 * s.pollCnt.toNat else 0
  | .pollWait => 2 * s.pollCnt.toNat + 1
  | .xfer | .settle => 0

/-- The most steps that can be ahead of the block. -/
def State.mostAhead (s : State) : Nat :=
  mostSteps s.acts + (if s.inFlight = none then 0 else 1) - s.pollSpent

theorem mostSteps_cons (a : Act) (as : List Act) : mostSteps (a :: as) = a.mostSteps + mostSteps as := rfl

theorem mostSteps_append (as bs : List Act) : mostSteps (as ++ bs) = mostSteps as + mostSteps bs := by
  simp [mostSteps]

theorem mostSteps_le_of_sublist {as bs : List Act} (h : as.Sublist bs) : mostSteps as ≤ mostSteps bs :=
  (h.map Act.mostSteps).sum_le_sum fun _ _ => Nat.zero_le _

theorem mostSteps_loopActs (n : Nat) : mostSteps (loopActs n) = n * 400002 + 1 := by
  induction n with
  | zero => rfl
  | succ n ih =>
    have hpass : mostSteps passActs = 400002 := rfl
    rw [loopActs, mostSteps_append, ih, hpass]
    ring

theorem mostSteps_load : mostSteps (openingActs ++ loopActs 256) = 103000527 := by
  rw [mostSteps_append, mostSteps_loopActs]
  rfl

theorem loopActs_sublist {n m : Nat} (h : n ≤ m) : (loopActs n).Sublist (loopActs m) := by
  induction m, h using Nat.le_induction with
  | base => exact .refl _
  | succ m _ ih => exact ih.trans (List.sublist_append_right passActs _)

/-- What is ahead at the start of a phase is a part of the script of a LOAD. -/
theorem actsFrom_sublist {r : Nat} (hr : r ≤ 256) (p : Phase) :
    (actsFrom r p).Sublist (openingActs ++ loopActs 256) := by
  have hloop : ∀ n, n ≤ 256 → (loopActs n).Sublist (openingActs ++ loopActs 256) := fun n hn =>
    (loopActs_sublist hn).trans (List.sublist_append_right _ _)
  cases p
  case idle | done => exact List.nil_sublist _
  case initDisable => exact .refl _
  case req => exact hloop r hr
  case rcv => exact (List.drop_sublist 3 _).trans (hloop r hr)
  case finDisable => exact hloop 0 (by omega)
  all_goals exact (List.drop_sublist _ openingActs).append_right _

/-- A polling phase begins with its poll, after which the LOAD makes two steps at least (R99, R100). -/
theorem Inv.actsFrom_poll {s : State} (hi : Inv s) (hp : s.phase ∈ pollPhases) :
    ∃ as, actsFrom s.remaining.toNat s.phase = .poll :: as ∧ 2 ≤ mostSteps as := by
  rcases List.mem_append.1 (show s.phase ∈ sendPhases ++ [.rcv] from hp) with h | h
  · obtain ⟨_, q, hq⟩ := sendPhase_rows h s.remaining
    refine ⟨_, actsFrom_send hq fun hr => hi.remainingPos (.inl hr), ?_⟩
    rw [mostSteps_cons]
    exact Nat.le_add_right ..
  · obtain h : s.phase = .rcv := by simpa using h
    refine ⟨_, by rw [h]; exact actsFrom_rcv (hi.remainingPos (.inr h)), ?_⟩
    rw [mostSteps_cons, mostSteps_loopActs, Act.mostSteps]
    omega

/-- Where a step makes the next event of the script, fewer steps are ahead after it. -/
theorem mostAhead_lt_of_acts {s t : State} {a : Act} (h : s.acts = a :: t.acts) (hf : s.inFlight = none)
    (hlt : s.pollSpent + (if t.inFlight = none then 0 else 1) < a.mostSteps) : t.mostAhead < s.mostAhead := by
  rw [State.mostAhead, State.mostAhead, h, mostSteps_cons, if_pos hf]
  omega

theorem PhaseStep.host_eq {s t : State} (h : PhaseStep s t) (hb : s.phase.busy = true) : t.host = s.host := by
  cases h <;> subst t
  case begins hp _ _ _ => exact absurd (hb.symm.trans (Phase.busy_eq_false.2 hp)) (by decide)
  all_goals rfl

/-- Every step of the block leaves fewer steps ahead, and none goes back to `IDLE`. -/
theorem PhaseStep.mostAhead_lt {s t : State} (hi : Inv s) (hb : s.phase.busy = true) (hf : s.inFlight = none)
    (h : PhaseStep s t) : t.phase ≠ .idle ∧ t.mostAhead < s.mostAhead := by
  obtain ⟨hidle, hdone⟩ := Phase.busy_eq_true.1 hb
  have hreq : s.phase = .req → 1 ≤ s.remaining.toNat := fun hp => hi.remainingPos (.inl hp)
  have hnone : s.phase ∉ pollPhases → s.pollSpent = 0 := fun hp => by simp [State.pollSpent, hi.subPoll hp, hp]
  cases h <;> subst t
  case waits hp => exact absurd hp (by simp [hidle, hdone])
  case begins hp _ _ _ => exact absurd hp (by simp [hidle, hdone])
  case writes r v q e hrow _ _ =>
    obtain ⟨ha, _, hp, hq⟩ := actsFrom_write s.remaining.toNat hrow
    refine ⟨hq, mostAhead_lt_of_acts (a := .write) ?_ hf ?_⟩
    · simp only [State.acts, hi.subPoll hp, ha]; rfl
    · simp [hnone hp, hf, Act.mostSteps]
  case settles hp =>
    have hp' : s.phase ∉ pollPhases := by rw [hp]; decide
    refine ⟨by simp, mostAhead_lt_of_acts (a := .wait) ?_ hf ?_⟩
    · simp only [State.acts, hp, hi.subPoll hp']; rfl
    · simp [hnone hp', hf, Act.mostSteps]
  case polls hp hs _ v e _ =>
    have hlt := hi.pollLt hp
    obtain ⟨as, ha, _⟩ := hi.actsFrom_poll hp
    refine ⟨hidle, ?_⟩
    cases hv : ready (awaited s.cfg s.phase) v
    · simp only [State.mostAhead, State.acts, State.pollSpent, eventsBehind, hs, hp, hf, ha, List.drop_zero,
        mostSteps_cons, Act.mostSteps, if_true, Bool.false_eq_true, if_false]
      omega
    · refine mostAhead_lt_of_acts (a := .poll) ?_ hf ?_
      · simp [State.acts, eventsBehind, hs, ha]
      · simp only [State.pollSpent, hs, hp, hf, Act.mostSteps, if_true]
        omega
  case fails hp hs hc =>
    obtain ⟨as, ha, h2⟩ := hi.actsFrom_poll hp
    have hcnt : s.pollCnt.toNat = 99999 := by bv_omega
    have hend : mostSteps (actsFrom s.remaining.toNat .finDisable) = 1 := rfl
    refine ⟨by simp, ?_⟩
    simp only [State.mostAhead, State.acts, State.pollSpent, eventsBehind, hs, hf, ha, hcnt, hend, List.drop_zero,
      mostSteps_cons, Act.mostSteps, if_true]
    omega
  case counts hp hs hc =>
    have hlt := hi.pollLt hp
    have hcnt : (s.pollCnt + 1#17).toNat = s.pollCnt.toNat + 1 := by bv_omega
    obtain ⟨as, ha, _⟩ := hi.actsFrom_poll hp
    refine ⟨hidle, ?_⟩
    simp only [State.mostAhead, State.acts, State.pollSpent, eventsBehind, hs, hp, hf, ha, hcnt, List.drop_zero,
      mostSteps_cons, Act.mostSteps, if_true]
    omega
  case sends hs _ x e hx _ =>
    obtain ⟨_, q, hq⟩ := sendPhase_rows (siteOf_some hx) s.remaining
    refine ⟨hidle, mostAhead_lt_of_acts (a := .command) ?_ hf ?_⟩
    · simp only [State.acts, hs, actsFrom_send hq hreq]; rfl
    · simp [State.pollSpent, hs, Act.mostSteps]
  case moves hs q hq =>
    refine ⟨by rintro rfl; simp [settleRows] at hq, mostAhead_lt_of_acts (a := .wait) ?_ hf ?_⟩
    · simp only [State.acts, hs, actsFrom_send hq hreq]
      by_cases h : q = .req <;> simp [h, eventsBehind]
    · simp [State.pollSpent, hs, hf, Act.mostSteps]
  case stores hp hs _ h1 h2 v e _ =>
    refine ⟨by simp only; split <;> simp, mostAhead_lt_of_acts (a := .fetch) ?_ hf ?_⟩
    · have hn : (s.remaining - 1#9).toNat = s.remaining.toNat - 1 := by bv_omega
      simp only [State.acts, hs, hp, actsFrom_rcv h1]
      by_cases h : s.remaining = 1#9
      · simp [h, eventsBehind, actsFrom]
      · simp [h, eventsBehind, actsFrom, hn]
    · simp [State.pollSpent, hs, hf, Act.mostSteps]

/-- With a silent host a step inside a LOAD leaves a good state with fewer steps ahead, inside the LOAD or at its end. -/
theorem Inv.step_mostAhead_lt {s t : State} (hi : Inv s) (hb : s.phase.busy = true) (hh : s.host = [])
    (h : step s = .next t) : t.host = [] ∧ t.phase ≠ .idle ∧ t.mostAhead < s.mostAhead := by
  rcases hi.step_cases h with ⟨x, e, _, hf, _, rfl⟩ | ⟨hf, l, hl, hp⟩ | ⟨_, _, hm, _⟩
  · refine ⟨hh, (Phase.busy_eq_true.1 hb).1, ?_⟩
    simp [State.mostAhead, State.acts, State.pollSpent, hi.sub_of_flight hf, hf]
  · obtain rfl : l = s.host := hl.resolve_right fun h => by simp [hh] at h
    exact ⟨hp.host_eq hb ▸ hh, hp.mostAhead_lt hi hb hf⟩
  · simp [hh] at hm

/-- At most the steps of a whole LOAD are ahead (R149). -/
theorem Inv.mostAhead_le {s : State} (hi : Inv s) : s.mostAhead ≤ 103000527 := by
  have hload : mostSteps (actsFrom s.remaining.toNat s.phase) ≤ 103000527 :=
    (mostSteps_le_of_sublist (actsFrom_sublist hi.remainingLe s.phase)).trans mostSteps_load.le
  have hacts : mostSteps s.acts + (if s.inFlight = none then 0 else 1) ≤
      mostSteps (actsFrom s.remaining.toNat s.phase) := by
    cases hf : s.inFlight with
    | none => exact mostSteps_le_of_sublist (List.drop_sublist _ _)
    | some w =>
      -- the word in flight has been written, so the poll before it is over
      obtain ⟨hs, x, hx, _⟩ := hi.flight w hf
      obtain ⟨_, q, hq⟩ := sendPhase_rows (siteOf_some hx) s.remaining
      rw [State.acts, hs, actsFrom_send hq fun hp => hi.remainingPos (.inl hp)]
      simp only [eventsBehind, List.drop_succ_cons, List.drop_zero, mostSteps_cons, Act.mostSteps, reduceCtorEq, if_false]
      omega
  exact (Nat.sub_le _ _).trans (hacts.trans hload)

/-! How a step inside a LOAD can stop. -/

/-- A good state with a silent host does not fault (R144). -/
theorem Inv.step_not_fault {s : State} (hi : Inv s) (hh : s.host = []) (x : Fault) : step s ≠ .fault x := by
  intro h
  cases hf : s.inFlight with
  | some w =>
    obtain ⟨_, y, hy, rfl⟩ := hi.flight w hf
    rw [step_site s y hy hf] at h
    exact exec_command_not_fault s (by cases y <;> rfl) x h
  | none =>
    rw [step_phase s hf hh] at h
    obtain ⟨hp, hs | hs⟩ := exec_phase_fault h
    · exact hi.subRcv hp hs
    · have hidx := (bufIndex_some s.remaining _).2 ⟨hi.remainingPos (.inr hp), hi.remainingLe, rfl⟩
      simp [hs] at hidx

/-- Inside a LOAD a step is ahead: E0 would go on. -/
theorem Inv.mostAhead_pos {s : State} (hi : Inv s) (hb : s.phase.busy = true) (hh : s.host = []) : 0 < s.mostAhead := by
  have hi' : Inv { s with env := .oracle [] } := { hi with }
  obtain ⟨t, ht⟩ := goodStatesGoOnUnderOracle _ [] hi' hh rfl
  exact Nat.zero_lt_of_lt (hi'.step_mostAhead_lt hb hh ht).2.2

/-- No access and no command replaces E0 (R60). -/
theorem oracle_serve {c : Config} {n : Nat} {a : Access} {tape : List Word} {v : Word} {e : Env}
    (h : (Env.oracle tape).serve c n a = .ok (v, e)) : ∃ tape', e = .oracle tape' := by
  cases a
  case read => cases tape <;> cases h <;> exact ⟨_, rfl⟩
  all_goals cases h; exact ⟨_, rfl⟩

/-- From a good state inside a LOAD, the host being silent, the LOAD ends or is refused within the steps that are ahead, and
E0 never refuses. -/
theorem load_ends {s : State} (hi : Inv s) (hb : s.phase.busy = true) (hh : s.host = []) :
    ∃ n, n ≤ s.mostAhead ∧ ((∃ t, runSteps n s = .next t ∧ t.phase = .done ∧ t.done = true) ∨
      ((∀ tape, s.env ≠ .oracle tape) ∧ ∃ x, runSteps n s = .refused x)) := by
  induction hm : s.mostAhead using Nat.strong_induction_on generalizing s with
  | _ m ih =>
    subst hm
    cases h : step s with
    | fault x => exact absurd h (hi.step_not_fault hh x)
    | refused x =>
      refine ⟨1, hi.mostAhead_pos hb hh, .inr ⟨fun tape he => ?_, x, (runSteps_one s).trans h⟩⟩
      obtain ⟨t, ht⟩ := goodStatesGoOnUnderOracle s tape hi hh he
      cases h.symm.trans ht
    | next t =>
      obtain ⟨hth, hidle, hlt⟩ := hi.step_mostAhead_lt hb hh h
      have hti := stepKeepsInv s t hi h
      by_cases hd : t.phase = .done
      · exact ⟨1, hi.mostAhead_pos hb hh, .inl ⟨t, (runSteps_one s).trans h, hd, hti.doneIff.2 hd⟩⟩
      · obtain ⟨n, hn, hend⟩ := ih _ hlt hti (Phase.busy_eq_true.2 ⟨hidle, hd⟩) hth rfl
        refine ⟨n + 1, by omega, hend.imp (fun ⟨u, hu, hud⟩ => ⟨u, runSteps_cons h hu, hud⟩) fun ⟨hne, x, hx⟩ => ?_⟩
        refine ⟨fun tape he => ?_, x, by rw [runSteps_succ, h]; exact hx⟩
        obtain ⟨a, v, hserve⟩ := step_serve hh h
        obtain ⟨tape', he'⟩ := oracle_serve (he ▸ hserve)
        exact hne tape' he'

/-- Settles O49: the LOAD ends within the steps that are ahead, which are at most those of a whole LOAD. -/
theorem loadTerminates : Obligations.LoadTerminates := by
  intro s hi hb hh
  obtain ⟨n, hn, hend⟩ := load_ends hi hb hh
  exact ⟨n, hn.trans hi.mostAhead_le, hend⟩

end Sys2Proof.Machine
end

section
/-! The words written to command (R120), and how a step can stop: by the window, by the environment, by a refused move of the
host, and in a good state in no other way (R75, R144). -/

namespace Sys2Proof.Machine

/-! Writes to command. -/

/-- None of the single writes of the engine goes to command (R92 to R97). -/
theorem writeRows_ne_cmd {c : Config} {p q : Phase} {r : Reg} {v : Word} (h : (p, r, v, q) ∈ writeRows c) : r ≠ .cmd := by
  simp only [writeRows, List.mem_cons, Prod.mk.injEq, List.not_mem_nil, or_false] at h
  rcases h with h | h | h | h | h | h | h | h <;> obtain ⟨_, rfl, _⟩ := h <;> decide

/-- The block writes to command only the word of its site (R76). -/
theorem PhaseStep.command_written {s t : State} {v : Word} (hc : s.cfg.wf = true) (h : PhaseStep s t)
    (ht : t.trace = s.trace ++ [.w s.cfg.offCmd v]) : ∃ x, siteOf s.phase s.remaining = some x ∧ v = siteWord s.cfg x := by
  cases h <;> subst t
  case sends x _ hx _ => exact ⟨x, hx, by simpa using ht.symm⟩
  case writes r w _ _ hr _ _ =>
    obtain ⟨hoff, _⟩ : s.cfg.off r = s.cfg.offCmd ∧ w = v := by simpa using ht
    exact absurd ((off_inj hc (q := .cmd)).1 hoff) (writeRows_ne_cmd hr)
  case waits | begins | settles | polls | fails | counts | moves | stores => simp at ht

/-- Settles O8: of the three turns only the block's makes an event, and a write to command is that of its site's word. -/
theorem onlyTheFiveWordsAreWritten : Obligations.OnlyTheFiveWordsAreWritten := by
  intro s t v hc h ht
  rcases step_next h with ⟨_, _, _, hd, hx⟩ | ⟨_, hs, _, hp⟩ | ⟨_, m, rest, _, hm⟩
  · obtain ⟨e, rfl⟩ := exec_command_next (decodeCommand_isCommand hd) hx
    simp at ht
  · obtain ⟨x, _, hv⟩ := PhaseStep.command_written (s := { s with host := hs }) hc (phase_next hp) ht
    exact ⟨x, hv⟩
  · simp [hostDoes_took_trace hm] at ht

/-! Refusals. -/

theorem thenDo_refused {o : Host.Outcome State Fault Refusal} {f : State → Host.Outcome State Fault Refusal}
    {x : Refusal} : thenDo o f = .refused x ↔ o = .refused x ∨ ∃ u, o = .next u ∧ f u = .refused x := by
  cases o <;> simp [thenDo]

/-- The refusals of the window and of the environment: an access without a window, or one that is not served (R62, R63, R68). -/
def PortRefuses (s : State) (x : Refusal) : Prop :=
  x = .notAttached ∨ ∃ a, s.env.serve s.cfg s.draws a = .error x

section
variable {s : State} {x : Refusal}

theorem takeAddress_portRefuses {a : BitVec 7} {d : Dir} (h : takeAddress a d s = .refused x) : PortRefuses s x :=
  .inr ⟨.address a d, by rw [Env.serve, takeAddress_refused.1 h]; rfl⟩

theorem takeData_portRefuses {b : Byte} {stop : Bool} (h : takeData b stop s = .refused x) : PortRefuses s x :=
  .inr ⟨.data b stop, by rw [Env.serve, takeData_refused.1 h]; rfl⟩

theorem regWrite_portRefuses {r : Reg} {v : Word} (h : regWrite r v s = .refused x) : PortRefuses s x := by
  unfold regWrite at h
  split at h
  · cases h
    exact .inl rfl
  · split at h <;> cases h
    rename_i he
    exact .inr ⟨.write r v, by rw [Env.serve, he]; rfl⟩

theorem regRead_portRefuses {r : Reg} (h : regRead r s = .error x) : PortRefuses s x := by
  unfold regRead at h
  split at h
  · cases h
    exact .inl rfl
  · split at h <;> cases h
    rename_i he
    exact .inr ⟨.read r, he⟩

/-- After a write nothing more is refused. -/
theorem write_then_portRefuses {r : Reg} {v : Word} {f : State → State}
    (h : thenDo (regWrite r v s) (fun u => .next (f u)) = .refused x) : PortRefuses s x := by
  rcases thenDo_refused.1 h with h | ⟨_, _, h⟩
  · exact regWrite_portRefuses h
  · cases h

theorem awaitStart_portRefuses (h : awaitStart s = .refused x) : PortRefuses s x := by
  unfold awaitStart beginLoad at h
  split at h
  · split at h <;> cases h
    exact .inl rfl
  · cases h

theorem pollRead_portRefuses {p : Phase} {mask : Word} (h : pollRead p mask s = .refused x) : PortRefuses s x := by
  unfold pollRead at h
  split at h <;> cases h
  exact regRead_portRefuses (by assumption)

theorem sendPhase_portRefuses {p : Phase} {w : Word} {f : State → State} (h : sendPhase p w f s = .refused x) :
    PortRefuses s x := by
  unfold sendPhase at h
  split at h
  · exact pollRead_portRefuses h
  · cases h
  · exact write_then_portRefuses h
  · cases h

theorem recvPhase_portRefuses (h : recvPhase s = .refused x) : PortRefuses s x := by
  unfold recvPhase at h
  split at h
  · exact pollRead_portRefuses h
  · cases h
  · split at h
    · cases h
    · split at h <;> cases h
      exact regRead_portRefuses (by assumption)
  · cases h

/-- Whatever its instruction, the controller or the block is refused only by the window or the environment. -/
theorem exec_portRefuses {i : Instr} (h : exec i s = .refused x) : PortRefuses s x := by
  cases i
  case start | rstart | wSelW | wSelR => exact takeAddress_portRefuses h
  case data | dataStop | wOffset | wCont | wLast => exact takeData_portRefuses h
  case idle | done => exact awaitStart_portRefuses h
  case initSettle => cases h
  case selW | offset | req => exact sendPhase_portRefuses h
  case selR =>
    unfold exec execSelR at h
    exact sendPhase_portRefuses h
  case rcv => exact recvPhase_portRefuses h
  case initDisable | initClklow | initClkhigh | initHold | initAck | initEnable | preAck | finDisable =>
    exact write_then_portRefuses h

end

/-! Who refuses a reserved word: neither the environment nor the host's turn. -/

theorem device_absorb_not_reserved (c : Config) (r : Reg) (v : Word) (e : Device) (y : Reserved) :
    e.absorb c r v ≠ .error (.reservedCommand y) := by
  unfold Device.absorb
  repeat' split
  all_goals simp

theorem device_answer_not_reserved (c : Config) (r : Reg) (e : Device) (y : Reserved) :
    e.answer c r ≠ .error (.reservedCommand y) := by
  unfold Device.answer
  repeat' split
  all_goals simp

theorem double_answer_not_reserved (c : Config) (r : Reg) (e : Double) (y : Reserved) :
    e.answer c r ≠ .error (.reservedCommand y) := by
  unfold Double.answer
  repeat' split
  all_goals simp

theorem except_map_error {x : Except Refusal Env} {y : Refusal} :
    x.map (fun e' => ((0#32 : Word), e')) = .error y ↔ x = .error y := by
  cases x <;> simp [Except.map]

/-- The refusals of an environment have names of their own (R62, R63). -/
theorem serve_not_reserved (c : Config) (n : Nat) (e : Env) (a : Access) (y : Reserved) :
    e.serve c n a ≠ .error (.reservedCommand y) := by
  intro h
  cases a
  case nothing => cases h
  case write r v =>
    have h := except_map_error.1 h
    cases e <;> simp only [Env.absorb, reduceCtorEq] at h
    split at h <;> cases h
    exact device_absorb_not_reserved _ _ _ _ _ (by assumption)
  case read r =>
    cases e <;> simp only [Env.serve] at h
    case oracle tape => cases tape <;> cases h
    all_goals
      simp only [Env.answer] at h
      split at h <;> cases h
    · exact double_answer_not_reserved _ _ _ _ (by assumption)
    · exact device_answer_not_reserved _ _ _ _ (by assumption)
  case address a d =>
    have h := except_map_error.1 h
    cases e
    case device e => simpa using device_addressPhase_error.1 h
    all_goals cases h
  case data b stop =>
    have h := except_map_error.1 h
    cases e
    case device e => simpa using device_dataPhase_error.1 h
    all_goals cases h

theorem PortRefuses.not_reserved {s : State} {y : Reserved} : ¬PortRefuses s (.reservedCommand y) := by
  rintro (h | ⟨a, h⟩)
  · cases h
  · exact serve_not_reserved _ _ _ _ _ h

theorem hostDoes_not_reserved (m : HostMove) (s : State) (y : Reserved) :
    hostDoes m s ≠ .stop (.reservedCommand y) := by
  cases m <;> simp only [hostDoes]
  all_goals repeat' split
  all_goals simp

/-! Good states. -/

/-- A good state's step runs the word its phase has written, or its phase, or is a move of the host, made or refused. -/
theorem Inv.step_turn {s : State} (hi : Inv s) :
    (∃ x : Site, step s = exec x.instr s) ∨ (∃ l, step s = exec s.phase.instr { s with host := l }) ∨
      (∃ t, step s = .next t) ∨ ∃ m u x, hostDoes m u = .stop x ∧ step s = .refused x := by
  by_cases hf : s.inFlight = none
  · right
    cases hh : s.host with
    | nil => exact .inl ⟨s.host, step_phase s hf hh⟩
    | cons m rest =>
      cases hm : hostDoes m { s with host := rest } with
      | pass t =>
        have hs := step_pass hf hh hm
        rcases hostDoes_pass hm with ⟨_, _, rfl⟩ | ⟨_, _, rfl⟩
        · exact .inl ⟨rest, hs⟩
        · exact .inl ⟨.loadStart :: rest, hs⟩
      | took t => exact .inr (.inl ⟨t, step_took hf hh hm⟩)
      | stop x => exact .inr (.inr ⟨m, _, x, hm, step_stop hf hh hm⟩)
  · obtain ⟨w, hw⟩ := Option.ne_none_iff_exists'.1 hf
    obtain ⟨_, x, hx, rfl⟩ := hi.flight w hw
    exact .inl ⟨x, step_site s x hx hw⟩

/-- The phase of a good state does not fault: `RCV` has a row and an index (R13, R144). -/
theorem Inv.exec_phase_not_fault {s : State} (hi : Inv s) (x : Fault) : exec s.phase.instr s ≠ .fault x := by
  intro h
  obtain ⟨hp, hs | hs⟩ := exec_phase_fault h
  · exact hi.subRcv hp hs
  · have hidx := (bufIndex_some s.remaining _).2 ⟨hi.remainingPos (.inr hp), hi.remainingLe, rfl⟩
    cases hs.symm.trans hidx

/-- Settles O15: by whose turn it is; a word in flight is an emitted one, and every other refusal has another name. -/
theorem goodStatesNeverFault : Obligations.GoodStatesNeverFault := by
  intro s hi
  rcases hi.step_turn with ⟨x, hx⟩ | ⟨l, hl⟩ | ⟨t, ht⟩ | ⟨m, u, x, hm, hx⟩
  · rw [hx]
    exact ⟨exec_command_not_fault s (by cases x <;> rfl), fun y h => (exec_portRefuses h).not_reserved⟩
  · have hi' : Inv { s with host := l } := { hi with }
    rw [hl]
    exact ⟨hi'.exec_phase_not_fault, fun y h => (exec_portRefuses h).not_reserved⟩
  · simp [ht]
  · rw [hx]
    refine ⟨by simp, fun y hy => ?_⟩
    cases hy
    exact hostDoes_not_reserved m u y hm

end Sys2Proof.Machine
end

section
/-! The phases of INIT and `PRE_ACK`, and sub-phase `SETTLE` of the sending phases, whatever phase the state is in. -/

namespace Sys2Proof.Machine

/-- A write that the environment absorbs, and the move after it. -/
theorem write_then_absorbed {s : State} {r : Reg} {v : Word} {e : Env} (hr : r ≠ .cmd) (hw : s.window ≠ none)
    (he : s.env.absorb s.cfg r v = .ok e) (f : State → State) :
    thenDo (regWrite r v s) (fun t => .next (f t)) = .next (f { s with
      env := e, regs := s.regs.set r v, trace := s.trace ++ [.w (s.cfg.off r) v] }) :=
  thenDo_next.2 ⟨_, regWrite_next.2 ⟨hw, e, he, rfl⟩, by rw [written_eq hr]⟩

/-- Settles O17: each phase is its one write and the move to the next phase. -/
theorem initRegisterWrites : Obligations.InitRegisterWrites := fun _ _ hw =>
  ⟨fun he => write_then_absorbed (by decide) hw he (State.goto .initClklow .poll),
    fun he => write_then_absorbed (by decide) hw he (State.goto .initClkhigh .poll),
    fun he => write_then_absorbed (by decide) hw he (State.goto .initHold .poll),
    fun he => write_then_absorbed (by decide) hw he (State.goto .initAck .poll),
    fun he => write_then_absorbed (by decide) hw he (State.goto .initEnable .poll),
    fun he => write_then_absorbed (by decide) hw he (State.goto .initSettle .poll)⟩

/-- Settles O18: the delay and nothing else, then the write and the start of the first poll. -/
theorem settleAndDefensiveAcknowledge : Obligations.SettleAndDefensiveAcknowledge := fun _ =>
  ⟨rfl, fun _ hw he => write_then_absorbed (by decide) hw he (State.enterPoll .selW)⟩

/-- In sub-phase `SETTLE` a SEND makes its delay and goes on (R99). -/
theorem sendPhase_settle {s : State} (hs : s.sub = .settle) (p : Phase) (w : Word) (f : State → State) :
    sendPhase p w f s = .next (f (delay 1 s)) := by
  simp only [sendPhase, hs, Config.writeSettleUs]

/-- Settles O23: the delay, then what each of the four phases does when its SEND ends. -/
theorem sendPhasesSettleAndMoveOn : Obligations.SendPhasesSettleAndMoveOn := fun _ hs =>
  ⟨sendPhase_settle hs .selW _ (State.enterPoll .offset), sendPhase_settle hs .offset _ (State.enterPoll .selR),
    sendPhase_settle hs .selR _ fun t => (t.setRemaining 256#9).enterPoll .req,
    sendPhase_settle hs .req _ (State.enterPoll .rcv)⟩

end Sys2Proof.Machine
end

section
/-! The general form of an emitted word (R74): whichever the bus makes of it, the controller takes it as the word of its
site. -/

namespace Sys2Proof

/-- A word of format A is read as a START or a REPEATED-START of its address and direction, whatever the bus. -/
theorem MasksApart.decodeForm_addressWord {c : Config} (h : MasksApart c) {f : Word}
    (hf : f = c.cmdStart ∨ f = c.cmdRstart) (held : Bool) (a : BitVec 7) (d : Dir) :
    decodeForm c held (addressWord c f a d) = .ok (.start a d) ∨
      decodeForm c held (addressWord c f a d) = .ok (.rstart a d) := by
  obtain ⟨hmem, hmask, hstop⟩ :
      f ∈ [c.cmdStart, c.cmdRstart, c.cmdStop] ∧ flagMask f = true ∧ c.cmdStop &&& f = 0#32 := by
    rcases hf with rfl | rfl
    · exact ⟨by simp, h.start, h.stopStart⟩
    · exact ⟨by simp, h.rstart, h.stopRstart⟩
  obtain ⟨h0, hlow⟩ := flagMask_iff.1 hmask
  have hw : Carries c (addressWord c f a d) f := h.carries _ (flag_and_flagBits hmem)
  have hform : f ∈ c.formFlags := by rcases hf with rfl | rfl <;> simp [Config.formFlags]
  obtain ⟨i, hi⟩ := h.decodeForm_reads_iff.2 ⟨f, hform, hw⟩
  have hother {g : Word} (hg : Carries c (addressWord c f a d) g) : f = g := hw.flags.symm.trans hg.flags
  rcases decodeForm_ok hi with ⟨_, hg⟩ | ⟨_, hg⟩ | ⟨rfl, _⟩ | ⟨rfl, _⟩
  · exact absurd (hother hg) h0
  · exact absurd (hother hg) (ne_of_and_eq_zero hstop h0)
  · rw [addressWord_address hlow, wordDir_addressWord hlow h.dirs] at hi
    exact .inl hi
  · rw [addressWord_address hlow, wordDir_addressWord hlow h.dirs] at hi
    exact .inr hi

namespace Machine

/-- The procedure's controller takes an emitted word as the machine's does (R74, R76). -/
theorem controllerTakes_siteWord {s : State} (hc : s.cfg.wf = true) (x : Site) :
    controllerTakes (siteWord s.cfg x) s = ofOutcome (exec x.instr s) := by
  have h := Config.wf_masksApart hc
  unfold controllerTakes
  cases x
  case selW =>
    rcases h.decodeForm_addressWord (.inl rfl) s.env.held Config.eepromAddr .w with e | e <;> rw [siteWord, e] <;> rfl
  case selR =>
    rcases h.decodeForm_addressWord (.inr rfl) s.env.held Config.eepromAddr .r with e | e <;> rw [siteWord, e] <;> rfl
  case offset | cont => rw [siteWord, decodeForm_dataWord_noFlag h]; rfl
  case last => rw [siteWord, decodeForm_dataWord_stop h]; rfl

theorem exec_site_refused {x : Site} {s : State} {y : Refusal} :
    exec x.instr s = .refused y ↔ s.env.take x = .error y := by
  cases x
  case selW | selR => exact takeAddress_refused
  case offset | cont | last => exact takeData_refused

end Machine
end Sys2Proof
end

section
/-! LOAD as the phase machine and as a procedure (R125, R127, R145): wherever the procedure stands, the machine stands in the
same state but for `phase`, `sub` and `poll_cnt`. -/

namespace Sys2Proof.Machine

/-! Runs that mirror a procedure. -/

/-- From `s` the machine does what the result of a procedure says: it comes to a state that `R` holds against the end of the
procedure, or `T` against its `Timeout`, or it is refused with the same name. No result is a fault. -/
def Mirrors (R T : State → State → Prop) (s : State) : ProcResult → Prop
  | .ok u => ∃ n t, runSteps n s = .next t ∧ R u t
  | .timeout u => ∃ n t, runSteps n s = .next t ∧ T u t
  | .stop x => ∃ n, runSteps n s = .refused x
  | .broken _ => False

section
variable {R R' T : State → State → Prop} {s t u : State} {o : ProcResult}

theorem Mirrors.of_run {m : Nat} (hrun : runSteps m s = .next t) (h : Mirrors R T t o) : Mirrors R T s o := by
  cases o with
  | ok | timeout =>
    obtain ⟨n, v, hn, hv⟩ := h
    exact ⟨m + n, v, runSteps_trans hrun hn, hv⟩
  | stop x =>
    obtain ⟨n, hn⟩ := h
    exact ⟨m + n, by rw [runSteps_add, hrun]; exact hn⟩
  | broken => exact h

/-- Procedures one after the other. -/
theorem Mirrors.andThen {g : State → ProcResult} (h : Mirrors R T s o) (hg : ∀ u t, R u t → Mirrors R' T t (g u)) :
    Mirrors R' T s (o.andThen g) := by
  cases o with
  | ok u =>
    obtain ⟨n, t, hn, ht⟩ := h
    exact (hg u t ht).of_run hn
  | timeout | stop | broken => exact h

theorem Mirrors.of_refused {x : Refusal} (h : step s = .refused x) : Mirrors R T s (.stop x) :=
  ⟨1, (runSteps_one s).trans h⟩

theorem Mirrors.of_next (h : step s = .next t) (hR : R u t) : Mirrors R T s (.ok u) :=
  ⟨1, t, (runSteps_one s).trans h, hR⟩

/-! Accesses. -/

/-- Two states that an access cannot tell apart. -/
structure SamePort (u t : State) : Prop where
  window : t.window = u.window
  env : t.env = u.env
  cfg : t.cfg = u.cfg
  draws : t.draws = u.draws

theorem samePort_goto (p : Phase) (q : Sub) (u : State) : SamePort u (u.goto p q) := ⟨rfl, rfl, rfl, rfl⟩

/-- An access of two such states is refused with one name, or answered alike. -/
theorem SamePort.regRead (h : SamePort u t) (r : Reg) :
    (∃ x, regRead r u = .error x ∧ regRead r t = .error x) ∨
    ∃ v e, regRead r u = .ok (v, received r v e u) ∧ regRead r t = .ok (v, received r v e t) := by
  simp only [Machine.regRead, h.window, h.env, h.cfg, h.draws]
  cases u.window with
  | none => exact .inl ⟨_, rfl, rfl⟩
  | some b =>
    cases u.env.answer u.cfg u.draws r with
    | error x => exact .inl ⟨x, rfl, rfl⟩
    | ok a => exact .inr ⟨a.1, a.2, rfl, by rw [← h.cfg]; rfl⟩

theorem SamePort.regWrite (h : SamePort u t) (r : Reg) (v : Word) :
    (∃ x, regWrite r v u = .refused x ∧ regWrite r v t = .refused x) ∨
    ∃ e, regWrite r v u = .next (written r v e u) ∧ regWrite r v t = .next (written r v e t) := by
  simp only [Machine.regWrite, h.window, h.env, h.cfg]
  cases u.window with
  | none => exact .inl ⟨_, rfl, rfl⟩
  | some b =>
    cases u.env.absorb u.cfg r v with
    | error x => exact .inl ⟨x, rfl, rfl⟩
    | ok e => exact .inr ⟨e, rfl, by rw [← h.cfg]; rfl⟩

/-- A step of one write against the write of the procedure. -/
theorem mirrors_write {r : Reg} {v : Word} {k : State → State} (h : SamePort u t)
    (hstep : step t = thenDo (regWrite r v t) fun a => .next (k a))
    (hR : ∀ e, R (written r v e u) (k (written r v e t))) : Mirrors R T t (ofOutcome (regWrite r v u)) := by
  rcases h.regWrite r v with ⟨x, hu, ht⟩ | ⟨e, hu, ht⟩ <;> rw [hu] <;> rw [ht] at hstep
  · exact .of_refused hstep
  · exact .of_next hstep (hR e)

end

/-! Where the procedure stands. -/

/-- What holds of the procedure's state between its accesses: the host is silent, the window mapped, no poll has failed, and
`c`, `r` and `f` are the configuration, `remaining` and the command in flight. -/
structure Fit (c : Config) (r : BitVec 9) (f : Option Word) (u : State) : Prop where
  host : u.host = []
  window : u.window ≠ none
  err : u.err = .ok
  cfg : u.cfg = c
  remaining : u.remaining = r
  flight : u.inFlight = f

/-- Where the procedure has the state `u`, the machine has `g u`. -/
def Shown (c : Config) (r : BitVec 9) (f : Option Word) (g : State → State) (u t : State) : Prop := Fit c r f u ∧ t = g u

/-- Where the procedure has timed out, the machine has made the fail transition. -/
def Failed (u t : State) : Prop := Alone u ∧ t = failLoad u

section
variable {c : Config} {r : BitVec 9} {f : Option Word} {u : State} {T : State → State → Prop}

theorem Fit.alone (h : Fit c r none u) : Alone u := ⟨h.flight, h.host, h.window⟩

/-- The machine's step in a phase `p`. -/
theorem Fit.step_goto (h : Fit c r none u) (p : Phase) (q : Sub) : step (u.goto p q) = exec p.instr (u.goto p q) :=
  step_phase (u.goto p q) h.flight h.host

theorem Fit.written (h : Fit c r none u) {g : Reg} (hg : g ≠ .cmd) (v : Word) (e : Env) :
    Fit c r none (written g v e u) := by
  rw [written_eq hg]
  exact ⟨h.host, h.window, h.err, h.cfg, h.remaining, h.flight⟩

theorem Fit.written_cmd (h : Fit c r none u) (v : Word) (e : Env) : Fit c r (some v) (Machine.written .cmd v e u) := by
  rw [written_cmd_eq]
  exact ⟨h.host, h.window, h.err, h.cfg, h.remaining, rfl⟩

theorem Fit.received (h : Fit c r f u) (g : Reg) (v : Word) (e : Env) : Fit c r f (received g v e u) := by
  rw [received_eq]
  exact ⟨h.host, h.window, h.err, h.cfg, h.remaining, h.flight⟩

theorem Fit.setBuf (h : Fit c r f u) (i : Nat) (b : Byte) : Fit c r f (u.setBuf i b) :=
  ⟨h.host, h.window, h.err, h.cfg, h.remaining, h.flight⟩

/-! INIT (R98). -/

theorem written_goto {g : Reg} (hg : g ≠ .cmd) (v : Word) (e : Env) (p : Phase) (q : Sub) (s : State) :
    written g v e (s.goto p q) = (written g v e s).goto p q := by
  rw [written_eq hg, written_eq hg]
  rfl

/-- A phase of INIT of one write, after which the machine shows `k`. -/
theorem Fit.mirrors_write (h : Fit c r none u) (p : Phase) {g : Reg} {v : Word} {k : State → State} (hg : g ≠ .cmd)
    (hexec : exec p.instr (u.goto p .poll) = thenDo (regWrite g v (u.goto p .poll)) fun a => .next (k a))
    (hk : ∀ a, k (a.goto p .poll) = k a) :
    Mirrors (Shown c r none k) T (u.goto p .poll) (ofOutcome (regWrite g v u)) := by
  refine Machine.mirrors_write (samePort_goto p .poll u) ((h.step_goto p .poll).trans hexec) fun e =>
    ⟨h.written hg v e, ?_⟩
  rw [written_goto hg, hk]

theorem mirrors_init (h : Fit c r none u) :
    Mirrors (Shown c r none (State.goto .preAck .poll)) T (u.goto .initDisable .poll) (initProc u) := by
  refine (h.mirrors_write .initDisable (k := State.goto .initClklow .poll) (by decide) rfl fun _ => rfl).andThen ?_
  rintro u _ ⟨h, rfl⟩
  refine (h.mirrors_write .initClklow (k := State.goto .initClkhigh .poll) (by decide) rfl fun _ => rfl).andThen ?_
  rintro u _ ⟨h, rfl⟩
  refine (h.mirrors_write .initClkhigh (k := State.goto .initHold .poll) (by decide) rfl fun _ => rfl).andThen ?_
  rintro u _ ⟨h, rfl⟩
  refine (h.mirrors_write .initHold (k := State.goto .initAck .poll) (by decide) rfl fun _ => rfl).andThen ?_
  rintro u _ ⟨h, rfl⟩
  refine (h.mirrors_write .initAck (k := State.goto .initEnable .poll) (by decide) rfl fun _ => rfl).andThen ?_
  rintro u _ ⟨h, rfl⟩
  refine (h.mirrors_write .initEnable (k := State.goto .initSettle .poll) (by decide) rfl fun _ => rfl).andThen ?_
  rintro u _ ⟨h, rfl⟩
  exact .of_next (h.step_goto .initSettle .poll) ⟨⟨h.host, h.window, h.err, h.cfg, h.remaining, h.flight⟩, rfl⟩

/-! POLL (R91). -/

/-- In sub-phase `POLL` a polling phase only reads the poll register for its bit. -/
theorem exec_poll {s : State} {p : Phase} (hp : p ∈ pollPhases) (hs : s.sub = .poll) :
    exec p.instr s = pollRead p (awaited s.cfg p) s := by
  rcases List.mem_append.1 (show p ∈ sendPhases ++ [.rcv] from hp) with h | h
  · rw [exec_send_poll hs h, awaited, if_neg (by rintro rfl; revert h; decide)]
  · obtain rfl := List.mem_singleton.1 h
    simp only [Phase.instr, exec, execRcv, recvPhase, hs]
    rfl

/-- What follows a not-ready read: the wait, and one count. -/
def waited (s : State) : State := (delay Config.pollStepUs s).setPollCnt (s.pollCnt + 1#17)

theorem Fit.waited (h : Fit c r f u) : Fit c r f (waited u) :=
  ⟨h.host, h.window, h.err, h.cfg, h.remaining, h.flight⟩

theorem pollWait_goto (p : Phase) (q : Sub) (s : State) : pollWait p (s.goto p q) =
    if pollExhausted (s.pollCnt + 1#17) then failLoad (waited s) else (waited s).goto p .poll := rfl

theorem pollLoop_not_ready {mask v : Word} {s t : State} (hr : regRead s.cfg.offPoll s = .ok (v, t))
    (hv : ready mask v = false) (n : Nat) : pollLoop mask (n + 1) s =
      if pollExhausted (t.pollCnt + 1#17) then .timeout (waited t) else pollLoop mask n (waited t) := by
  rw [pollLoop, hr]
  simp only [hv]
  rfl

/-- The machine's poll read against the procedure's: refused with one name, or answered with one word. -/
theorem Fit.poll_read (h : Fit c r none u) {p : Phase} (hp : p ∈ pollPhases) :
    (∃ x, regRead u.cfg.offPoll u = .error x ∧ step (u.goto p .poll) = .refused x) ∨
    ∃ v a, regRead u.cfg.offPoll u = .ok (v, a) ∧ Fit c r none a ∧ a.pollCnt = u.pollCnt ∧
      step (u.goto p .poll) = .next (a.goto p (if ready (awaited c p) v then .xfer else .pollWait)) := by
  have hstep := h.step_goto p .poll
  rw [exec_poll hp rfl, pollRead, State.goto_cfg, h.cfg] at hstep
  rw [h.cfg]
  rcases (samePort_goto p .poll u).regRead c.offPoll with ⟨x, hu, ht⟩ | ⟨v, e, hu, ht⟩ <;> rw [ht] at hstep
  · exact .inl ⟨x, hu, hstep⟩
  · exact .inr ⟨v, _, hu, h.received _ v e, rfl, hstep⟩

/-- The loop of a poll, from a count that leaves it as many reads as its bound: the machine's sub-phases `POLL` and
`POLL_WAIT` in turn (R91). -/
theorem mirrors_pollLoop {p : Phase} (hp : p ∈ pollPhases) (n : Nat) (h : Fit c r none u)
    (hn : u.pollCnt.toNat + n = 100000) (hlt : u.pollCnt.toNat < 100000) :
    Mirrors (Shown c r none (State.goto p .xfer)) Failed (u.goto p .poll) (pollLoop (awaited c p) n u) := by
  induction n generalizing u with
  | zero => omega
  | succ n ih =>
    rcases h.poll_read hp with ⟨x, hu, hstep⟩ | ⟨v, a, hu, ha, hcnt, hstep⟩
    · rw [pollLoop, hu]
      exact .of_refused hstep
    cases hv : ready (awaited c p) v with
    | true =>
      rw [hv] at hstep
      simp only [pollLoop, hu, hv, if_true]
      exact .of_next hstep ⟨ha, rfl⟩
    | false =>
      rw [hv] at hstep
      have hwait : runSteps 2 (u.goto p .poll) = .next (pollWait p (a.goto p .pollWait)) :=
        runSteps_cons hstep ((runSteps_one _).trans ((ha.step_goto p .pollWait).trans (exec_pollWait rfl hp)))
      rw [pollWait_goto] at hwait
      rw [pollLoop_not_ready hu hv]
      by_cases hx : a.pollCnt + 1#17 = 100000#17
      · rw [hx] at hwait ⊢
        exact ⟨2, _, hwait, ha.waited.alone, rfl⟩
      · have hbound : pollExhausted (a.pollCnt + 1#17) = false := by simpa [pollExhausted, Config.pollMax] using hx
        have hnext : (Machine.waited a).pollCnt.toNat = u.pollCnt.toNat + 1 := by
          change (a.pollCnt + 1#17).toNat = _
          bv_omega
        rw [hbound] at hwait ⊢
        exact (ih ha.waited (by omega) (by bv_omega)).of_run hwait

theorem mirrors_poll {p : Phase} (hp : p ∈ pollPhases) (h : Fit c r none u) :
    Mirrors (Shown c r none (State.goto p .xfer)) Failed (u.enterPoll p) (pollProc (awaited c p) u) :=
  mirrors_pollLoop (u := u.setPollCnt 0#17) hp _ ⟨h.host, h.window, h.err, h.cfg, h.remaining, h.flight⟩
    (by simp [Config.pollMax]) (by simp)

/-! SEND (R99). -/

/-- What the machine shows after a SEND: the next phase begins its poll, `remaining` being loaded if that is `REQ`
(R139). -/
def sent (q : Phase) (u : State) : State := (u.setRemaining (if q = .req then 256#9 else u.remaining)).enterPoll q

/-- The controller takes the word of the site `x`. -/
theorem mirrors_take (hc : c.wf = true) {p : Phase} {x : Site} (h : Fit c r (some (siteWord c x)) u)
    (hx : siteOf p r = some x) :
    Mirrors (Shown c r none (State.goto p .settle)) T (u.goto p .settle) (controllerTakes (siteWord c x) u) := by
  obtain rfl := h.cfg
  have hstep : step (u.goto p .settle) = exec x.instr (u.goto p .settle) :=
    step_site (u.goto p .settle) x (by rw [← h.remaining] at hx; exact hx) h.flight
  rw [controllerTakes_siteWord hc]
  cases he : u.env.take x with
  | error y =>
    rw [exec_site_refused.2 he]
    exact .of_refused (hstep.trans (exec_site_refused.2 he))
  | ok e =>
    rw [exec_site_next.2 ⟨e, he, rfl⟩]
    exact .of_next (hstep.trans (exec_site_next.2 ⟨e, he, rfl⟩))
      ⟨⟨h.host, h.window, h.err, rfl, h.remaining, rfl⟩, rfl⟩

/-- A SEND of the word of the site `x`: poll, command write, the controller's step and the delay. -/
theorem mirrors_send (hc : c.wf = true) (h : Fit c r none u) {p q : Phase} {x : Site} (hq : (p, q) ∈ settleRows)
    (hx : siteOf p r = some x) :
    Mirrors (Shown c r none (sent q)) Failed (u.enterPoll p) (sendProc (siteWord c x) u) := by
  have hp : p ∈ sendPhases := siteOf_some hx
  have haw : awaited c p = u.cfg.txReady := by
    rw [awaited, if_neg (by rintro rfl; revert hp; decide), h.cfg]
  have hpoll := mirrors_poll (List.mem_append_left [Phase.rcv] hp) h
  rw [haw] at hpoll
  refine hpoll.andThen ?_
  rintro u _ ⟨h, rfl⟩
  have hwrite : step (u.goto p .xfer) = thenDo (regWrite .cmd (siteWord c x) (u.goto p .xfer)) fun t =>
      .next (t.goto p .settle) := by
    rw [h.step_goto, exec_send_xfer rfl (by rw [← h.remaining] at hx; exact hx), ← h.cfg]
    rfl
  refine (mirrors_write (R := Shown c r (some (siteWord c x)) (State.goto p .settle)) (samePort_goto p .xfer u) hwrite
    fun e => ⟨h.written_cmd _ e, rfl⟩).andThen ?_
  rintro u _ ⟨h, rfl⟩
  refine (mirrors_take hc h hx).andThen ?_
  rintro u _ ⟨h, rfl⟩
  exact .of_next (step_settle (s := u.goto p .settle) ⟨h.flight, h.host, h.window⟩ rfl hq)
    ⟨⟨h.host, h.window, h.err, h.cfg, h.remaining, h.flight⟩, rfl⟩

/-! RECV and the loop (R100, R125). -/

/-- The phase in which a pass of the loop begins, or the loop ends. -/
def loopPhase (r : BitVec 9) : Phase := if r = 0#9 then .finDisable else .req

/-- What the machine shows when the procedure has stored a byte: the pass is counted too, and the next phase begins
(R141). -/
def passed (u : State) : State := (u.setRemaining (u.remaining - 1#9)).enterPoll (loopPhase (u.remaining - 1#9))

theorem loopPhase_pred (r : BitVec 9) : loopPhase (r - 1#9) = if r = 1#9 then .finDisable else .req := by
  have h : r - 1#9 = 0#9 ↔ r = 1#9 := by constructor <;> intro hr <;> bv_omega
  simp only [loopPhase, h]

theorem received_goto (g : Reg) (v : Word) (e : Env) (p : Phase) (q : Sub) (s : State) :
    received g v e (s.goto p q) = (received g v e s).goto p q := rfl

theorem storeByte_goto (i : Nat) (v : Word) (p : Phase) (q : Sub) (s : State) :
    storeByte i v (s.goto p q) = passed (s.setBuf i (lowByte v)) := by
  rw [storeByte_eq, passed, State.setBuf_remaining, loopPhase_pred]
  rfl

/-- A RECV and the store of its byte. -/
theorem mirrors_recv (h : Fit c r none u) {i : Nat} (hi : bufIndex r = some i) :
    Mirrors (Shown c r none passed) Failed (u.enterPoll .rcv) (recvProc i u) := by
  have haw : awaited c .rcv = u.cfg.rxReady := by rw [awaited, if_pos rfl, h.cfg]
  have hpoll := mirrors_poll (p := .rcv) (by decide) h
  rw [haw] at hpoll
  refine hpoll.andThen ?_
  rintro u _ ⟨h, rfl⟩
  have hstep := h.step_goto .rcv .xfer
  have hidx : bufIndex u.remaining = some i := by rw [h.remaining, hi]
  simp only [Phase.instr, exec, execRcv, recvPhase, State.goto_sub, State.goto_remaining, hidx] at hstep
  rcases (samePort_goto .rcv .xfer u).regRead .rxdata with ⟨x, hu, ht⟩ | ⟨v, e, hu, ht⟩
  · simp only [ht] at hstep
    simp only [hu]
    exact .of_refused hstep
  · simp only [ht, received_goto, storeByte_goto] at hstep
    simp only [hu]
    exact .of_next hstep ⟨(h.received .rxdata v e).setBuf i (lowByte v), rfl⟩

/-- The loop from a pass with `n` bytes to come. -/
theorem mirrors_byteLoop (hc : c.wf = true) (n : Nat) (h : Fit c r none u) (hr : r.toNat = n) (hn : n ≤ 256) :
    Mirrors (Shown c 0#9 none (State.enterPoll .finDisable)) Failed (u.enterPoll (loopPhase r)) (byteLoop n u) := by
  induction n generalizing u r with
  | zero =>
    obtain rfl : r = 0#9 := BitVec.eq_of_toNat_eq hr
    exact ⟨0, _, rfl, h, rfl⟩
  | succ n ih =>
    have hne : r ≠ 0#9 := by rintro rfl; simp at hr
    obtain ⟨i, hi⟩ : ∃ i, bufIndex r = some i := ⟨_, (bufIndex_some r _).2 ⟨by omega, by omega, rfl⟩⟩
    simp only [byteLoop, h.remaining, if_neg hne, hi, h.cfg, loopPhase]
    refine (mirrors_send hc h (p := .req) (q := .rcv) (by decide) rfl).andThen ?_
    rintro u _ ⟨h, rfl⟩
    refine (mirrors_recv h hi).andThen ?_
    rintro u _ ⟨h, rfl⟩
    rw [passed, h.remaining]
    exact ih (r := r - 1#9) ⟨h.host, h.window, h.err, h.cfg, rfl, h.flight⟩ (by bv_omega) (by omega)

/-- What a `Timeout` aborts (R125). -/
theorem mirrors_attempt (hc : c.wf = true) (h : Fit c r none u) :
    Mirrors (Shown c 0#9 none (State.enterPoll .finDisable)) Failed (u.enterPoll .selW) (attemptProc u) := by
  unfold attemptProc
  rw [h.cfg]
  refine (mirrors_send hc h (q := .offset) (by decide) rfl).andThen ?_
  rintro u _ ⟨h, rfl⟩
  rw [h.cfg]
  refine (mirrors_send hc h (p := .offset) (q := .selR) (by decide) rfl).andThen ?_
  rintro u _ ⟨h, rfl⟩
  rw [h.cfg]
  refine (mirrors_send hc h (p := .selR) (q := .req) (by decide) rfl).andThen ?_
  rintro u _ ⟨h, rfl⟩
  exact mirrors_byteLoop (r := 256#9) hc 256 ⟨h.host, h.window, h.err, h.cfg, rfl, h.flight⟩ rfl le_rfl

end

/-! The end of a LOAD (R142). -/

/-- At the end of a LOAD the machine shows the procedure's state in phase `p`, but after a success with `poll_cnt` cleared
(log entry 29). -/
def atEnd (p : Phase) (u : State) : State := (u.setPollCnt (if u.err = .ok then 0#17 else u.pollCnt)).goto p .poll

/-- The disabling write, with which `done` is set (R142). -/
theorem mirrors_finish {T : State → State → Prop} {u : State} (h : Alone u) :
    Mirrors (fun a t => t = atEnd .done a) T (atEnd .finDisable u) (finishProc u) := by
  have hport : SamePort u (atEnd .finDisable u) := ⟨rfl, rfl, rfl, rfl⟩
  have hstep : step (atEnd .finDisable u) = thenDo (regWrite .ctrl Config.ctrlDisable (atEnd .finDisable u)) fun t =>
      .next (t.endLoad.goto .done .poll) := step_phase (atEnd .finDisable u) h.flight h.host
  refine (mirrors_write (R := fun a t => t = atEnd .done a.endLoad) hport hstep fun e => ?_).andThen
    fun a t ht => ⟨0, t, rfl, ht⟩
  rw [State.endLoad_eq, State.endLoad_eq, written_eq (by decide), written_eq (by decide)]
  rfl

/-- In a good state at the start of a LOAD the procedure's first updates have been made (R126). -/
theorem fit_of_atLoadStart {s : State} (hi : Inv s) (h : atLoadStart s) :
    Fit s.cfg s.remaining none s.flagsAtStart.forgetBuf ∧ s.flagsAtStart.forgetBuf.goto .initDisable .poll = s := by
  obtain ⟨ha, hp, hs⟩ := alone_of_atLoadStart hi h
  have hd := hi.done_eq_false (by rw [hp]; decide)
  have he := hi.errPending (by rw [hp]; decide) (by rw [hp]; decide)
  have hb := hi.unknownBefore (by rw [hp]; decide)
  refine ⟨⟨ha.host, ha.window, rfl, rfl, rfl, ha.flight⟩, ?_⟩
  rw [← hp, ← hs, State.goto, State.forgetBuf, State.flagsAtStart, ← hd, ← he, ← hb]

/-- LOAD: INIT, the second acknowledge, then the attempt, and the same end whether it succeeds or times out (R125, R142). -/
theorem mirrors_load {s : State} (hi : Inv s) (h : atLoadStart s) :
    Mirrors (fun a t => t = atEnd .done a) (fun _ _ => False) s (loadProc s) := by
  obtain ⟨hfit, hs⟩ := fit_of_atLoadStart hi h
  have hinit := mirrors_init (T := fun _ _ => False) hfit
  rw [hs] at hinit
  refine hinit.andThen ?_
  rintro a _ ⟨ha, rfl⟩
  refine (ha.mirrors_write .preAck (k := State.enterPoll .selW) (by decide) rfl fun _ => rfl).andThen ?_
  rintro b _ ⟨hb, rfl⟩
  have hattempt := mirrors_attempt hi.cfgWf hb
  revert hattempt
  cases attemptProc b with
  | ok u =>
    rintro ⟨n, _, hrun, hu, rfl⟩
    have hend : u.enterPoll .finDisable = atEnd .finDisable u := by rw [atEnd, if_pos hu.err]; rfl
    exact (hend ▸ mirrors_finish hu.alone).of_run hrun
  | timeout u =>
    rintro ⟨n, _, hrun, hu, rfl⟩
    exact (mirrors_finish (u := u.flagTimeout) ⟨hu.flight, hu.host, hu.window⟩).of_run hrun
  | stop | broken => exact id

/-- Settles O48: the run mirrors the procedure, and at the end it shows the procedure's state but for `phase`, `sub` and,
after a success, `poll_cnt`. -/
theorem loadMatchesTheProcedure : Obligations.LoadMatchesTheProcedure := by
  intro s hi h
  have hload := mirrors_load hi h
  revert hload
  cases loadProc s with
  | ok u =>
    rintro ⟨n, _, hrun, rfl⟩
    exact ⟨n, _, hrun, rfl, rfl, rfl, rfl, rfl, rfl, rfl, rfl⟩
  | timeout u => exact fun ⟨_, _, _, hfalse⟩ => hfalse
  | stop | broken => exact id

end Sys2Proof.Machine
end

section
/-! The decode accessors (R150 to R155): the format check, each accessor's result by it, and the host's step that calls one. -/

namespace Sys2Proof.Machine

/-! The bytes of a cache that may be read, and the common check (R19, R151). -/

section
variable {s : State}

theorem layoutCheck_of_err (he : s.err ≠ .ok) : layoutCheck s = s.err := if_pos he

theorem bufByte_eq_of_get? (hd : s.done = true) (he : s.err = .ok) {i : Nat} {b : Byte} (hb : s.buf.get? i = some b) :
    s.bufByte i = b := by
  simp [State.bufByte, hd, he, hb]

/-- After a success the check is that of the format id alone. -/
theorem layoutCheck_of_ok (hd : s.done = true) (he : s.err = .ok) {b : Byte} (hb : s.buf.get? 0 = some b) :
    layoutCheck s = if b ≠ 0#8 then .unrecognizedFormat else .ok := by
  simp only [layoutCheck, he, bufByte_eq_of_get? hd he hb, Config.formatId0, ne_eq, not_true_eq_false, if_false]

theorem layoutCheck_of_format_ne (hd : s.done = true) (he : s.err = .ok) {b : Byte} (hb : s.buf.get? 0 = some b)
    (h0 : b ≠ 0#8) : layoutCheck s = .unrecognizedFormat := by
  rw [layoutCheck_of_ok hd he hb, if_pos h0]

theorem layoutCheck_of_format (hd : s.done = true) (he : s.err = .ok) (hb : s.buf.get? 0 = some 0#8) :
    layoutCheck s = .ok := by
  rw [layoutCheck_of_ok hd he hb, if_neg (not_not_intro rfl)]

/-- A run of stored bytes is read back in index order (R152, R153). -/
theorem bufBytes_eq_of_get? (hd : s.done = true) (he : s.err = .ok) {off : Nat} {bs : List Byte}
    (h : ∀ i, i < bs.length → s.buf.get? (off + i) = bs[i]?) : s.bufBytes off bs.length = bs := by
  refine List.ext_getElem (by simp [State.bufBytes]) fun i _ hi => ?_
  simpa [State.bufBytes] using bufByte_eq_of_get? hd he ((h i hi).trans (List.getElem?_eq_getElem hi))

/-! The result of each accessor. -/

theorem macAddress_of_failed {k : Kind} (h : layoutCheck s = k) (hk : k ≠ .ok) : macAddress s = (k, []) := by
  rw [macAddress, h, if_neg hk]

theorem macAddress_of_ok (h : layoutCheck s = .ok) : macAddress s = (.ok, s.bufBytes 1 6) := if_pos h

theorem assetTag_of_failed {k : Kind} (h : layoutCheck s = k) (hk : k ≠ .ok) (out : List Byte) (cap : Nat) :
    assetTag out cap s = (k, out) := by
  rw [assetTag, h, if_pos hk]

theorem assetTag_of_small (h : layoutCheck s = .ok) (out : List Byte) {cap : Nat} (hcap : cap < 11) :
    assetTag out cap s = (.insufficientCapacity, out) := by
  rw [assetTag, if_neg (not_not_intro h)]
  exact if_pos hcap

theorem assetTag_of_ok (h : layoutCheck s = .ok) (out : List Byte) {cap : Nat} (hcap : 11 ≤ cap) :
    assetTag out cap s = (.ok, s.bufBytes 7 10 ++ 0#8 :: out.drop 11) := by
  rw [assetTag, if_neg (not_not_intro h)]
  exact if_neg (Nat.not_lt.2 hcap)

/-! The step of the host's call, once `done` is set. -/

variable {rest : List HostMove}

theorem step_macAddress {k : Kind} {bs : List Byte} (hf : s.inFlight = none) (hh : s.host = .macAddress :: rest)
    (hd : s.done = true) (hr : macAddress s = (k, bs)) :
    step s = .next { s with host := rest, replies := s.replies ++ [.mac k bs] } := by
  have hr' : macAddress { s with host := rest } = (k, bs) := (accessors_congr rfl rfl rfl rfl).1.trans hr
  refine step_took hf hh ((if_pos hd).trans ?_)
  rw [hr']
  rfl

theorem step_assetTag {out bs : List Byte} {cap : Nat} {k : Kind} (hf : s.inFlight = none)
    (hh : s.host = .assetTag out cap :: rest) (hd : s.done = true) (hr : assetTag out cap s = (k, bs)) :
    step s = .next { s with host := rest, replies := s.replies ++ [.tag k bs] } := by
  have hr' : assetTag out cap { s with host := rest } = (k, bs) := ((accessors_congr rfl rfl rfl rfl).2 out cap).trans hr
  refine step_took hf hh ((if_pos hd).trans ?_)
  rw [hr']
  rfl

end

/-- Settles O38: refused before `done`, else by the outcome of the common check. -/
theorem macAddressResult : Obligations.MacAddressResult := by
  intro s rest hf hh
  refine ⟨fun hd => (earlyReadsAreRefused s _ rest hf hh).1 hd (.inl rfl), fun hd he => ?_, fun b hd he hb h0 => ?_,
    fun m0 m1 m2 m3 m4 m5 hd he hb h0 h1 h2 h3 h4 h5 => ?_⟩
  · exact step_macAddress hf hh hd (macAddress_of_failed (layoutCheck_of_err he) he)
  · exact step_macAddress hf hh hd (macAddress_of_failed (layoutCheck_of_format_ne hd he hb h0) (by decide))
  · have hbytes : s.bufBytes 1 6 = [m0, m1, m2, m3, m4, m5] := by
      refine bufBytes_eq_of_get? hd he (bs := [m0, m1, m2, m3, m4, m5]) ?_
      simp only [List.length_cons, List.length_nil, Nat.forall_lt_succ_right]
      simp [h0, h1, h2, h3, h4, h5]
    exact step_macAddress hf hh hd (by rw [macAddress_of_ok (layoutCheck_of_format hd he hb), hbytes])

/-- Settles O39: refused before `done`, else by the outcome of the common check and then by `cap`. -/
theorem assetTagResult : Obligations.AssetTagResult := by
  intro s rest out cap hf hh
  refine ⟨fun hd => (earlyReadsAreRefused s _ rest hf hh).1 hd (.inr (.inr ⟨out, cap, rfl⟩)), fun hd he => ?_,
    fun b hd he hb h0 => ?_, fun hd he hb hcap => ?_, fun tag hd he hb hcap hlen htag => ?_⟩
  · exact step_assetTag hf hh hd (assetTag_of_failed (layoutCheck_of_err he) he out cap)
  · exact step_assetTag hf hh hd (assetTag_of_failed (layoutCheck_of_format_ne hd he hb h0) (by decide) out cap)
  · exact step_assetTag hf hh hd (assetTag_of_small (layoutCheck_of_format hd he hb) out hcap)
  · have hbytes : s.bufBytes 7 10 = tag := hlen ▸ bufBytes_eq_of_get? hd he fun i hi => htag i (hlen ▸ hi)
    exact step_assetTag hf hh hd (by rw [assetTag_of_ok (layoutCheck_of_format hd he hb) out hcap, hbytes])

/-- An accessor has one answer for every state with the same cache: a call adds it to the replies, takes the move off the
host's list, and changes nothing else (R150, R155). -/
theorem accessor_answer {s : State} {m : HostMove} (hm : m = .macAddress ∨ ∃ out cap, m = .assetTag out cap)
    (hd : s.done = true) : ∃ a, ∀ (t : State) (rest : List HostMove), t.inFlight = none → t.host = m :: rest →
      t.done = s.done → t.err = s.err → t.buf = s.buf → t.draws = s.draws →
      step t = .next { t with host := rest, replies := t.replies ++ [a] } := by
  rcases hm with rfl | ⟨out, cap, rfl⟩
  · exact ⟨_, fun t rest hf hh hd' he hb hn =>
      step_macAddress hf hh (hd'.trans hd) (accessors_congr hd' he hb hn).1⟩
  · exact ⟨_, fun t rest hf hh hd' he hb hn =>
      step_assetTag hf hh (hd'.trans hd) ((accessors_congr hd' he hb hn).2 out cap)⟩

/-- Settles O40: the first call leaves the cache as it is, so the second has the same answer. -/
theorem accessorsAreIdempotent : Obligations.AccessorsAreIdempotent := by
  intro s t u m rest hf hh hm ht hu
  have hd : s.done = true := by
    by_contra hd
    rw [(earlyReadsAreRefused s m _ hf hh).1 (by simpa using hd) (by tauto)] at ht
    cases ht
  obtain ⟨a, ha⟩ := accessor_answer hm hd
  obtain rfl := Host.Outcome.next.inj (ht.symm.trans (ha s _ hf hh rfl rfl rfl rfl))
  obtain rfl := Host.Outcome.next.inj (hu.symm.trans (ha _ rest hf rfl rfl rfl rfl rfl))
  exact ⟨rfl, a, rfl, rfl, rfl⟩

end Sys2Proof.Machine
end

section
/-! The hazard rules (R190 to R195) are kept by every step: the block's rows one by one, by the event each of them makes. -/

namespace Sys2Proof.Machine

/-- The rules speak of phase, sub-phase, trace and configuration only. -/
theorem HazardInv.outside {s : State} (hi : HazardInv s) {w : Option Nat} {f : Option Word} {e : Env}
    {hs : List HostMove} {r : List Reply} :
    HazardInv { s with env := e, inFlight := f, window := w, host := hs, replies := r } := { hi with }

/-- At the first sub-phase of a phase no transfer and no write-settle delay is next, so the last event and the last write to
control are all that is asked for. -/
theorem hazardInv_at_poll {t : State} (hs : t.sub = .poll)
    (hcmd : ∀ v, t.trace.getLast? = some (.w t.cfg.offCmd v) → t.phase ∈ restPhases)
    (henable : t.trace.getLast? = some (.w t.cfg.offCtrl t.cfg.ctrlEnable) → t.phase = .initSettle ∨ t.phase ∈ restPhases)
    (hsettle : t.phase = .initSettle → t.trace.getLast? = some (.w t.cfg.offCtrl t.cfg.ctrlEnable))
    (hoff : t.phase ∈ disabledPhases → lastWrite t.cfg.offCtrl t.trace = some 0#32) : HazardInv t where
  sendReady := by simp [hs]
  recvReady := by simp [hs]
  writeThenSettle := fun v h => .inr (hcmd v h)
  enableThenSettle := henable
  settleAfterWrite := by simp [hs]
  settleAfterEnable := hsettle
  timingDisabled := hoff

/-- At rest or at the disabling write of INIT, whatever the trace (R185). -/
theorem hazardInv_at_rest {t : State} (hs : t.sub = .poll) (hp : t.phase ∈ restPhases) : HazardInv t := by
  obtain ⟨hsettle, hoff⟩ : t.phase ≠ .initSettle ∧ t.phase ∉ disabledPhases := by
    revert hp; cases t.phase <;> decide
  exact hazardInv_at_poll hs (fun _ _ => hp) (fun _ => .inr hp) (fun h => absurd h hsettle) (fun h => absurd h hoff)

/-- Polling phases, the defensive acknowledge and the disabling write at the end lie outside INIT. -/
theorem not_init_of_later {p : Phase} (hp : p ∈ pollPhases ++ [.preAck, .finDisable]) :
    p ≠ .initSettle ∧ p ∉ disabledPhases := by
  revert p; decide

/-- After a read or a delay, outside INIT. -/
theorem hazardInv_after_no_write {t : State} {tr : List Event} {ev : Event} (hs : t.sub = .poll)
    (hp : t.phase ∈ pollPhases ++ [.preAck, .finDisable]) (ht : t.trace = tr ++ [ev]) (hev : ∀ o v, ev ≠ .w o v) :
    HazardInv t := by
  obtain ⟨hsettle, hoff⟩ := not_init_of_later hp
  have hlast : ∀ o v, t.trace.getLast? ≠ some (.w o v) := by simpa [ht] using hev
  exact hazardInv_at_poll hs (fun v h => absurd h (hlast _ v)) (fun h => absurd h (hlast _ _))
    (fun h => absurd h hsettle) (fun h => absurd h hoff)

/-- Of the single writes the enabling one, and no other, leads to the enable-settle delay (R134). -/
theorem writeRows_enable {c : Config} (hc : c.ctrlEnable ≠ 0#32) {p q : Phase} {r : Reg} {v : Word}
    (h : (p, r, v, q) ∈ writeRows c) : r = .ctrl ∧ v = c.ctrlEnable ↔ q = .initSettle := by
  simp only [writeRows, List.mem_cons, Prod.mk.injEq, List.not_mem_nil, or_false] at h
  rcases h with h | h | h | h | h | h | h | h <;> obtain ⟨rfl, rfl, rfl, rfl⟩ := h <;> simp [hc.symm]

/-- A phase between the disabling and the enabling write is entered by the disabling write, or from another one of them by a
write elsewhere (R98). -/
theorem writeRows_disabled {c : Config} {p q : Phase} {r : Reg} {v : Word} (h : (p, r, v, q) ∈ writeRows c)
    (hq : q ∈ disabledPhases) : (r = .ctrl ∧ v = 0#32) ∨ (r ≠ .ctrl ∧ p ∈ disabledPhases) := by
  simp only [writeRows, List.mem_cons, Prod.mk.injEq, List.not_mem_nil, or_false] at h
  rcases h with h | h | h | h | h | h | h | h <;> obtain ⟨rfl, rfl, rfl, rfl⟩ := h
  case inl => exact .inl ⟨rfl, rfl⟩
  case inr.inl | inr.inr.inl | inr.inr.inr.inl | inr.inr.inr.inr.inl => exact .inr (by decide)
  all_goals exact absurd hq (by decide)

theorem settleRows_poll {p q : Phase} (h : (p, q) ∈ settleRows) : q ∈ pollPhases := by
  have hrows : ∀ x ∈ settleRows, x.2 ∈ pollPhases := by decide
  exact hrows _ h

theorem awaited_send {p : Phase} (hp : p ∈ sendPhases) (c : Config) : awaited c p = c.txReady :=
  if_neg (by rintro rfl; revert hp; decide)

theorem lastWrite_same (off : Nat) (tr : List Event) (v : Word) : lastWrite off (tr ++ [.w off v]) = some v := by
  simp [lastWrite]

section
variable {s t : State}

/-- A single write: never to command, and to control either the disabling value or the enabling one, which leads to the
enable-settle delay. -/
theorem HazardInv.writes (hi : HazardInv s) (hc : s.cfg.wf = true) {r : Reg} {v : Word}
    (hr : (s.phase, r, v, t.phase) ∈ writeRows s.cfg) (hs : t.sub = .poll) (hcfg : t.cfg = s.cfg)
    (ht : t.trace = s.trace ++ [.w (s.cfg.off r) v]) : HazardInv t := by
  have hctrl : s.cfg.off r = s.cfg.offCtrl ↔ r = .ctrl := off_inj hc (q := .ctrl)
  have hcmd : s.cfg.off r ≠ s.cfg.offCmd := fun h => writeRows_ne_cmd hr ((off_inj hc (q := .cmd)).1 h)
  obtain ⟨_, _, _, hne⟩ := Config.ready_masks hc
  have henable : t.trace.getLast? = some (.w t.cfg.offCtrl t.cfg.ctrlEnable) ↔ t.phase = .initSettle := by
    simpa [ht, hcfg, hctrl] using writeRows_enable hne hr
  refine hazardInv_at_poll hs (fun w h => ?_) (fun h => .inl (henable.1 h)) henable.2 fun hq => ?_
  · simp [ht, hcfg, hcmd] at h
  · rw [ht, hcfg]
    rcases writeRows_disabled hr hq with ⟨rfl, rfl⟩ | ⟨hr', hp⟩
    · exact lastWrite_same _ _ _
    · rw [lastWrite_other _ _ _ _ (mt hctrl.1 hr')]
      exact hi.timingDisabled hp

/-- A poll read shows the awaited bit where a transfer follows (R192, R193). -/
theorem hazardInv_after_poll_read (hp : s.phase ∈ pollPhases) {v : Word} {e : Env} {g : Regs} {d : Nat} :
    HazardInv { s with
      sub := if ready (awaited s.cfg s.phase) v then .xfer else .pollWait, env := e, regs := g,
      trace := s.trace ++ [.r (s.cfg.off s.cfg.offPoll) v], draws := d } := by
  have hready : (if ready (awaited s.cfg s.phase) v then Sub.xfer else .pollWait) = .xfer →
      ready (awaited s.cfg s.phase) v = true := by simp
  have hsettle : (if ready (awaited s.cfg s.phase) v then Sub.xfer else .pollWait) ≠ .settle := by split <;> decide
  obtain ⟨hne, hoff⟩ := not_init_of_later (List.mem_append_left _ hp)
  exact {
    sendReady := fun hq hx => ⟨v, by simp, awaited_send hq s.cfg ▸ hready hx⟩
    recvReady := fun hq hx => ⟨v, by simp, (if_pos hq : awaited s.cfg s.phase = s.cfg.rxReady) ▸ hready hx⟩
    writeThenSettle := by simp
    enableThenSettle := by simp
    settleAfterWrite := fun _ h => absurd h hsettle
    settleAfterEnable := fun h => absurd h hne
    timingDisabled := fun h => absurd h hoff }

/-- A command write leads to the write-settle delay (R190). -/
theorem hazardInv_after_command (hc : s.cfg.wf = true) (hp : s.phase ∈ sendPhases) {w : Word} {e : Env}
    {f : Option Word} {g : Regs} : HazardInv { s with
      sub := .settle, env := e, inFlight := f, regs := g, trace := s.trace ++ [.w s.cfg.offCmd w] } := by
  have hctrl : s.cfg.offCmd ≠ s.cfg.offCtrl := fun h => by cases (off_inj hc (r := .cmd) (q := .ctrl)).1 h
  have hpoll : s.phase ∈ pollPhases := List.mem_append_left [Phase.rcv] hp
  obtain ⟨hne, hoff⟩ := not_init_of_later (List.mem_append_left _ hpoll)
  exact {
    sendReady := by simp
    recvReady := by simp
    writeThenSettle := fun _ _ => .inl ⟨hp, rfl⟩
    enableThenSettle := by simp [hctrl]
    settleAfterWrite := fun _ _ => ⟨w, by simp⟩
    settleAfterEnable := fun h => absurd h hne
    timingDisabled := fun h => absurd h hoff }

/-- Every step of the block keeps the hazard rules. -/
theorem PhaseStep.keeps_hazardInv (h : PhaseStep s t) (hi : HazardInv s) (hc : s.cfg.wf = true) : HazardInv t := by
  cases h
  case waits ht => exact ht ▸ hi
  case begins ht => exact hazardInv_at_rest (by simp [ht]) (by simp [ht, restPhases])
  case writes hr _ _ ht => exact hi.writes hc (by rw [ht]; exact hr) (by rw [ht]) (by rw [ht]) (by rw [ht])
  case polls hp _ _ _ _ _ ht => exact ht ▸ hazardInv_after_poll_read hp
  case sends hx _ ht => exact ht ▸ hazardInv_after_command hc (siteOf_some hx)
  all_goals subst t
  case moves q hq => exact hazardInv_after_no_write rfl (List.mem_append_left _ (settleRows_poll hq)) rfl (by simp)
  case stores =>
    refine hazardInv_after_no_write rfl ?_ rfl (by simp)
    by_cases h1 : s.remaining = 1#9 <;> simp [h1, pollPhases]
  case counts hp _ _ => exact hazardInv_after_no_write rfl (List.mem_append_left _ hp) rfl (by simp)
  case settles | fails => exact hazardInv_after_no_write rfl (by simp) rfl (by simp)

end

/-- A move of the host makes no event; the reset event leads to rest (R185). -/
theorem HazardInv.host_moves {s t : State} (hi : HazardInv s) {m : HostMove} (h : hostDoes m s = .took t) :
    HazardInv t := by
  rcases hostDoes_took h with ⟨_, _, _, _, rfl⟩ | ⟨_, _, rfl⟩ | ⟨_, rfl⟩ | ⟨_, rfl⟩ | ⟨_, _, rfl⟩
  case inr.inr.inr.inl => exact hazardInv_at_rest rfl (by simp [resetEvent, restPhases])
  all_goals exact hi.outside

/-- Settles O13: the controller and the host outside the reset event touch nothing the rules speak of, and the block keeps
them row by row. -/
theorem stepKeepsHazardRules : Obligations.StepKeepsHazardRules := by
  intro s t hc hi h
  rcases step_next h with ⟨_, _, _, hd, hx⟩ | ⟨_, hs, _, hp⟩ | ⟨_, m, rest, _, hm⟩
  · obtain ⟨e, rfl⟩ := exec_command_next (decodeCommand_isCommand hd) hx
    exact hi.outside
  · exact (phase_next (s := { s with host := hs }) hp).keeps_hazardInv hi.outside hc
  · exact HazardInv.host_moves (s := { s with host := rest }) hi.outside hm

end Sys2Proof.Machine
end

section
/-! Where `RCV` stops (R127, R144), and the reset event of the host (R43, R185, R186). -/

namespace Sys2Proof.Machine

/-- There is no index exactly where `remaining` is 0 or above 256 (R144). -/
theorem bufIndex_eq_none {r : BitVec 9} : bufIndex r = none ↔ r = 0#9 ∨ 256 < r.toNat := by
  simp only [Option.eq_none_iff_forall_ne_some, ne_eq, bufIndex_some]
  constructor
  · intro h
    have hout : ¬(1 ≤ r.toNat ∧ r.toNat ≤ 256) := fun ⟨hlo, hhi⟩ => h _ ⟨hlo, hhi, rfl⟩
    bv_omega
  · rintro (rfl | hr) i ⟨hlo, hhi, _⟩
    · exact absurd hlo (by decide)
    · omega

/-- Sub-phase `SETTLE` has no row in `RCV` (R127). -/
theorem recvPhase_settle {s : State} (hs : s.sub = .settle) : recvPhase s = .fault .noTransitionRow := by
  simp only [recvPhase, hs]

/-- The transfer of `RCV` stops before its read where there is no index (R144). -/
theorem recvPhase_xfer_no_index {s : State} (hs : s.sub = .xfer) (hi : bufIndex s.remaining = none) :
    recvPhase s = .fault .bufIndexOutOfRange := by
  simp only [recvPhase, hs, hi]

/-- Settles O28: the missing row, and the missing index. -/
theorem rcvFaultsOutsideItsRows : Obligations.RcvFaultsOutsideItsRows := fun _ =>
  ⟨recvPhase_settle, fun hs hr => recvPhase_xfer_no_index hs (bufIndex_eq_none.2 hr)⟩

/-- Outside a LOAD the reset event leaves the environment. -/
theorem resetEvent_env_at_rest {s : State} (h : s.phase = .idle ∨ s.phase = .done) : (resetEvent s).env = s.env := by
  simp only [resetEvent, Phase.busy_eq_false.2 h, Bool.false_eq_true, if_false]

/-- After a reset inside a LOAD nothing is known of the environment (R186). -/
theorem resetEvent_env_in_load {s : State} (hi : s.phase ≠ .idle) (hd : s.phase ≠ .done) :
    (resetEvent s).env = .oracle [] := by
  simp only [resetEvent, Phase.busy_eq_true.2 ⟨hi, hd⟩, if_true]

/-- Settles O44: the move is the whole step; it writes the gating registers and `buf`, and the environment by the phase. -/
theorem resetEventGatesTheBlock : Obligations.ResetEventGatesTheBlock := fun s rest hf hh =>
  ⟨resetEvent { s with host := rest }, step_took hf hh rfl, rfl, rfl, rfl, fun _ => rfl, rfl, rfl, rfl, rfl, rfl,
    resetEvent_env_at_rest (s := { s with host := rest }), resetEvent_env_in_load (s := { s with host := rest })⟩

end Sys2Proof.Machine
end
